-- ==== Sys2Proof/Word.lean ====
section
/-! DEFINITION. The machine's value types. Registers, the program counter and indices are natural numbers
(spec/00_scope.md R9, R21, R26), so they need no type of their own; bit vectors are used only for what the spec
gives a width: a program cell (CELLW = 8, R50) and a 3-bit field or output value (R71, OUTW = 3 of R8). -/

namespace Sys2Proof

/-- One program cell, 0..255 (spec/20_memory.md R50; CELLW = 8 of spec/00_scope.md R8). -/
abbrev Byte := BitVec 8

/-- A 3-bit value, 0..7: the operand field `x` (spec/30_encoding.md R71) and an output value (OUTW = 3, R8). -/
abbrev Oct := BitVec 3

/-- `bitlen(v)`, the least `n` with `v < 2^n`; `bitlen(0) = 0` (spec/00_scope.md R10). -/
def bitlen (v : Nat) : Nat := if v = 0 then 0 else v.log2 + 1

end Sys2Proof
end

