-- ==== Sys2Proof/Config.lean ====
section
/-! DEFINITION. What an implementation fixes: the OPEN parameters of spec/00_scope.md R8. CELLW = 8 and OUTW = 3 are
fixed there and stand in the types of Word.lean. The spec leaves no instruction's result open, so there is no free
value. -/

namespace Sys2Proof.Config

/-- The OPEN parameters of spec/00_scope.md R8; `none` is the unbounded normative value, `some n` a finite build's.
(DESIGN CHOICE, safe: log 4) -/
structure Build where
  /-- REGW: width in bits of A, B and C. -/
  regw    : Option Nat
  /-- PCW: width in bits of pc. -/
  pcw     : Option Nat
  /-- MAXLEN: the longest program a launch accepts. -/
  maxlen  : Option Nat
  /-- CANDCAP: the capacity of the candidate store. -/
  candcap : Option Nat
  deriving DecidableEq, Repr

/-- The normative values of R8: every parameter unbounded. -/
def normative : Build := { regw := none, pcw := none, maxlen := none, candcap := none }

end Sys2Proof.Config
end

