-- ==== Sys2Proof/Syntax.lean ====
section
/-! DEFINITION. The eight instructions of spec/30_encoding.md R75, one constructor for each row of
spec/opcode_table.json. -/

namespace Sys2Proof

/-- An instruction: its opcode as the constructor and the raw operand field `x`, the form spec/30_encoding.md R86
writes (`out 4` is `x = 4`, not the resolved value). -/
inductive Instr where
  /-- `adv x`, combo operand (spec/41_shift.md R110). -/
  | adv (x : Oct)
  /-- `bxl x`, literal operand (spec/42_bitwise.md R120). -/
  | bxl (x : Oct)
  /-- `bst x`, combo operand (spec/42_bitwise.md R121). -/
  | bst (x : Oct)
  /-- `jnz x`, literal operand (spec/43_jump.md R130). -/
  | jnz (x : Oct)
  /-- `bxc x`, the operand is present and ignored (spec/42_bitwise.md R122). -/
  | bxc (x : Oct)
  /-- `out x`, combo operand (spec/44_output.md R140). -/
  | out (x : Oct)
  /-- `bdv x`, combo operand (spec/41_shift.md R111). -/
  | bdv (x : Oct)
  /-- `cdv x`, combo operand (spec/41_shift.md R112). -/
  | cdv (x : Oct)
  deriving DecidableEq, Repr

end Sys2Proof
end

