-- ==== Sys2Proof/Machine/State.lean ====
section
/-! DEFINITION. The state of the machine, spec/10_state.md R20, as plain data; the results the host receives; the
commands it issues; the state before the first launch. -/

namespace Sys2Proof.Machine

/-- FCAUSE, the cause the fault latch holds (spec/60_exceptions.md R221, codes 0 to 4 in this order; code 5 is never
latched, R226). (DEDUCED, safe: log 19) -/
inductive FCause where
  /-- 0, no fault recorded -/
  | noFault
  /-- 1, FetchTruncated (R222) -/
  | fetchTruncated
  /-- 2, DecodeError.IllegalOpcode (R223) -/
  | illegalOpcode
  /-- 3, DecodeError.IllegalOperandCell (R224) -/
  | illegalOperandCell
  /-- 4, DecodeError.IllegalCombo (R225) -/
  | illegalCombo
  deriving DecidableEq, Repr

/-- The result of one step of the core (spec/00_scope.md R13). -/
inductive StepResult where
  | continues
  | output (v : Oct)
  | halt
  | fault (cause : FCause) (fpc : Nat) (fval : Byte)
  deriving DecidableEq, Repr

/-- The three kinds of a verification mismatch (spec/47_verifier.md R206). -/
inductive MismatchKind where
  | wrongValue
  | excessOutput
  | prematureHalt
  deriving DecidableEq, Repr

/-- The values of VRES (spec/47_verifier.md R206). -/
inductive VRes where
  | pending
  | verified
  | mismatch (kind : MismatchKind) (pos : Nat) (expected : Option Byte) (actual : Option Oct)
  | fault (cause : FCause) (fpc : Nat) (fval : Byte) (pos : Nat)
  deriving DecidableEq, Repr

/-- Why a command is refused (spec/60_exceptions.md R228). -/
inductive RefuseReason where
  | notLaunched
  | busy
  | tooWide
  | tooLong
  deriving DecidableEq, Repr

/-- The commands of spec/45_run_commands.md R150, with their arguments. -/
inductive Command where
  | launch (program : List Byte) (a b c : Nat)
  | step
  | run (program : List Byte) (a b c : Nat)
  | runUntilFirstOutput (program : List Byte) (a b c : Nat)
  | findMinimalSeed (program : List Byte)
  | verify (program : List Byte) (a b c : Nat)
  deriving DecidableEq, Repr

/-- What the host receives from a command (R150, R263), the propagated faults as spec/60_exceptions.md R237 lists
them. (DESIGN CHOICE, safe: log 9) -/
inductive Answer where
  /-- nothing yet, or a launch, which has no result (R150) -/
  | noResult
  | step (r : StepResult)
  | runOk (outputs : List Oct)
  | runFault (cause : FCause) (fpc : Nat) (fval : Byte) (outputs : List Oct)
  | firstOk (v : Option Oct)
  | firstFault (cause : FCause) (fpc : Nat) (fval : Byte)
  | seedOk (seed : Option Nat)
  | seedFault (cause : FCause) (fpc : Nat) (fval : Byte) (round candidate : Nat)
  /-- Fault(CandidateOverflow, ROUND), code 5 (R226) -/
  | seedOverflow (round : Nat)
  | verify (r : VRes)
  | refused (why : RefuseReason)
  deriving DecidableEq, Repr

/-- The command in progress and its loop variables (R150; the loops of spec/46_seed_search.md R172).
(DESIGN CHOICE, safe: log 10) -/
inductive Activity where
  /-- no command is in progress -/
  | idle
  /-- `run`: stepping until Halt or a fault (R151) -/
  | run
  /-- `run_until_first_output` (R153) -/
  | firstOutput
  /-- `find_minimal_seed`, at `while ROUND < LEN` -/
  | seedRound
  /-- `find_minimal_seed`, before the next trial: the target `t`, the values `p'` of this round still to be tried, in
  order, and NEXT -/
  | seedNext (t : Byte) (todo next : List Nat)
  /-- `find_minimal_seed`, the trial of `p'` is running -/
  | seedTrial (t : Byte) (p' : Nat) (todo next : List Nat)
  /-- `verify` (R202) -/
  | verify
  deriving DecidableEq, Repr

/-- What the host does while one machine step passes. (DESIGN CHOICE, unsafe: log 5) -/
inductive HostAction where
  | wait
  | issue (cmd : Command)
  deriving DecidableEq, Repr

/-- The state: the fields of R20, then the model's own bookkeeping. -/
structure State where
  /-- register A (R21) -/
  a        : Nat
  /-- register B (R21) -/
  b        : Nat
  /-- register C (R21) -/
  c        : Nat
  /-- the program counter, a cell index (R26) -/
  pc       : Nat
  /-- FCAUSE (R31) -/
  fcause   : FCause
  /-- FPC (R31) -/
  fpc      : Nat
  /-- FVAL (R31) -/
  fval     : Byte
  /-- LAUNCHED (R31) -/
  launched : Bool
  /-- PROG, the cells by index, strictly rising (R35); an index not listed holds nothing (R51) -/
  prog     : List Host.Cell
  /-- LEN (R31) -/
  len      : Nat
  /-- OUT, oldest first (R36) -/
  out      : List Oct
  /-- CAND (R37) -/
  cand     : List Nat
  /-- ROUND (R38) -/
  round    : Nat
  /-- SHAPE (R38) -/
  shape    : Bool
  /-- SEED (R38) -/
  seed     : Option Nat
  /-- VPOS (R39) -/
  vpos     : Nat
  /-- VRES (R39) -/
  vres     : VRes
  /-- model: the result of the last core step, none where no step was made since the launch
  (DESIGN CHOICE, safe: log 9) -/
  sres     : Option StepResult
  /-- model: what the host last received (DESIGN CHOICE, safe: log 9) -/
  answer   : Answer
  /-- model: the command in progress (DESIGN CHOICE, safe: log 10) -/
  activity : Activity
  /-- model: what the host will do, oldest first (DESIGN CHOICE, unsafe: log 5) -/
  inbox    : List HostAction
  /-- model: the build's parameters, never written (DESIGN CHOICE, safe: log 4) -/
  build    : Config.Build
  deriving DecidableEq, Repr

/-- Why the machine stops. The spec's own faults (R221) do not stop it: they are latched (R230) and are next states. -/
inductive Fault where
  /-- PROG lists no cell at an index below LEN. Raised by the instruction fetch, by the search's target selection and by
  the verifier's comparison, in a state that breaks `State.ProgramLoaded`, which no run from reset reaches (R54). Safe.
  (DESIGN CHOICE, safe: log 8) -/
  | missingCell
  deriving DecidableEq, Repr

/-- Why an instruction has no meaning. The spec's refused commands (R228) are not this: they are answers. -/
inductive Refusal where
  /-- Raised by exec's arm for an instruction the model gives no meaning; no arm does. Safe. -/
  | notModelled (mnemonic : String)
  deriving DecidableEq, Repr

/-- The state before the first launch: LAUNCHED = 0 (R42, R261) and nothing in progress. The spec gives no other
field a value there but VRES (`Pending` where none has run, R206); DESIGN CHOICE: the values below (unsafe: log 1,
2, 3, 9), which no step reads before a launch, a search or a verify writes them. The build is the normative one (R8;
log 4). -/
def State.reset : State :=
  { a := 0, b := 0, c := 0, pc := 0
    fcause := .noFault, fpc := 0, fval := 0
    launched := false
    prog := [], len := 0, out := []
    cand := [], round := 0, shape := false, seed := none
    vpos := 0, vres := .pending
    sres := none, answer := .noResult, activity := .idle, inbox := []
    build := Config.normative }

end Sys2Proof.Machine
end

