-- ==== Sys2Proof/Machine/Ops.lean ====
section
/-! DEFINITION. The named operations over memory, registers, the output channel, the step result and the fault latch.
`State.raise` is the one operation by which every fault is taken (spec/60_exceptions.md R230). There is no return
from a fault (R233): the one way out of it is the launch of Machine/Launch.lean. -/

namespace Sys2Proof.Machine

/-- What the machine does next, or why it stops. -/
abbrev Result := Host.Outcome State Fault Refusal

/-- Go on from a next state; a stop stays a stop. -/
def andThen (o : Result) (f : State → Result) : Result :=
  match o with
  | .next s => f s
  | .fault r => .fault r
  | .refused r => .refused r

/-- The cell at an index. An index that is not listed holds nothing (spec/20_memory.md R51). (DEDUCED, safe: log 17) -/
def Memory.read (m : List Host.Cell) (i : Nat) : Option Byte :=
  match m with
  | [] => none
  | cell :: rest => if cell.1 = i then some cell.2 else Memory.read rest i

/-- The memory with one cell written, in the canonical form: strictly rising indices. No instruction does this
(R53). -/
def Memory.write (m : List Host.Cell) (i : Nat) (v : Byte) : List Host.Cell :=
  match m with
  | [] => [(i, v)]
  | cell :: rest =>
    if i < cell.1 then (i, v) :: cell :: rest
    else if i = cell.1 then (i, v) :: rest
    else cell :: Memory.write rest i v

/-- The cells of a program at the indices `i`, `i+1`, ... -/
def Memory.loadAt (i : Nat) (program : List Byte) : List Host.Cell :=
  match program with
  | [] => []
  | v :: rest => (i, v) :: Memory.loadAt (i + 1) rest

/-- PROG after a launch: `PROG[i] = program[i]` (spec/10_state.md R44). -/
def Memory.load (program : List Byte) : List Host.Cell := Memory.loadAt 0 program

/-- Every index listed is at least `i`, and the indices rise strictly. -/
def Memory.risingFrom (i : Nat) (m : List Host.Cell) : Bool :=
  match m with
  | [] => true
  | cell :: rest => decide (i ≤ cell.1) && Memory.risingFrom (cell.1 + 1) rest

/-- The canonical form: strictly rising indices. An unlisted index reads as nothing, so no cell listed equals it. -/
def Memory.wf (m : List Host.Cell) : Bool := Memory.risingFrom 0 m

/-- `PROG[i]`, defined for `i < LEN` (spec/00_scope.md R12, spec/20_memory.md R51). -/
def State.cell (s : State) (i : Nat) : Option Byte := if i < s.len then Memory.read s.prog i else none

/-- `A <- v`. -/
def State.setA (s : State) (v : Nat) : State := { s with a := v }

/-- `B <- v`. -/
def State.setB (s : State) (v : Nat) : State := { s with b := v }

/-- `C <- v`. -/
def State.setC (s : State) (v : Nat) : State := { s with c := v }

/-- `pc <- target` (spec/00_scope.md R12). -/
def State.setPc (s : State) (target : Nat) : State := { s with pc := target }

/-- The default update `pc <- pc + 2` (spec/40_step_cycle.md R98). -/
def State.advancePc (s : State) : State := s.setPc (s.pc + 2)

/-- `emit(v)`: append to OUT (spec/10_state.md R36). -/
def State.emit (s : State) (v : Oct) : State := { s with out := s.out ++ [v] }

/-- The step's result. (DESIGN CHOICE, safe: log 9) -/
def State.returns (s : State) (r : StepResult) : State := { s with sres := some r }

/-- The result of the last core step; `Continue` where none was made. -/
def State.stepResult (s : State) : StepResult := s.sres.getD .continues

/-- `raise <Fault>(info)` (spec/60_exceptions.md R230): write the latch and nothing else, with FPC the pc of the
faulting instruction, and return the fault. Control goes nowhere. (DEDUCED, safe: log 6) -/
def State.raise (s : State) (cause : FCause) (fval : Byte) : State :=
  { s with fcause := cause, fpc := s.pc, fval := fval, sres := some (.fault cause s.pc fval) }

/-- Hand the host a result: the command is over. -/
def State.finish (s : State) (r : Answer) : State := { s with answer := r, activity := .idle }

/-- The command in progress goes on in another place of its loop. -/
def State.goTo (s : State) (p : Activity) : State := { s with activity := p }

/-- A refused command changes nothing; the host receives the reason (spec/60_exceptions.md R228).
(DEDUCED, safe: log 7) -/
def State.refuse (s : State) (why : RefuseReason) : State := { s with answer := .refused why }

end Sys2Proof.Machine
end

