-- ==== Sys2Proof/Machine/Flags.lean ====
section
/-! DEFINITION. The machine has no flags and no condition codes (spec/10_state.md R30). What it has of status is the
derived STATUS of R32 and the numbers of the causes (spec/60_exceptions.md R221). -/

namespace Sys2Proof.Machine

/-- The values of STATUS (spec/10_state.md R31). -/
inductive Status where
  | idle
  | run
  | halt
  | fault
  deriving DecidableEq, Repr

/-- STATUS, a function of the other fields (R32). -/
def State.status (s : State) : Status :=
  if s.launched = false then .idle
  else if s.fcause ≠ .noFault then .fault
  else if s.len ≤ s.pc then .halt
  else .run

/-- The number of a cause (spec/60_exceptions.md R221). -/
def FCause.code : FCause → Nat
  | .noFault => 0
  | .fetchTruncated => 1
  | .illegalOpcode => 2
  | .illegalOperandCell => 3
  | .illegalCombo => 4

/-- The number of CandidateOverflow, carried in the search's result only (R221, R226). -/
def candidateOverflowCode : Nat := 5

end Sys2Proof.Machine
end

