-- ==== Sys2Proof/WellFormed.lean ====
section
/-! DEFINITION. Which terms of Instr are instructions: of the 64 pairs (op, x), the 59 of spec/30_encoding.md R78. -/

namespace Sys2Proof

/-- A combo operand is legal unless it is 7 (spec/30_encoding.md R78, spec/40_step_cycle.md R95). -/
def comboLegal (x : Oct) : Bool := x != 7

/-- The one check of a term: `x = 7` is illegal exactly under adv, bst, out, bdv and cdv (R78); it is legal under bxl,
jnz and bxc (R79). -/
def Instr.wellFormed : Instr → Bool
  | .adv x => comboLegal x
  | .bst x => comboLegal x
  | .out x => comboLegal x
  | .bdv x => comboLegal x
  | .cdv x => comboLegal x
  | .bxl _ => true
  | .jnz _ => true
  | .bxc _ => true

end Sys2Proof
end

