-- ==== Sys2Proof/Decode.lean ====
section
/-! DEFINITION. Decoding (spec/30_encoding.md R88): a total function of the two cells of an instruction to an
instruction or one of three named rejections; the encoder, written from the same table (R71, R75); and the decoder
read over the notational word of spec/opcode_table.json. -/

namespace Sys2Proof

/-- What decoding two cells gives: an instruction, or the rejection R88 names, with the offending cell's value. -/
inductive Decoded where
  | instr (i : Instr)
  /-- the opcode cell is 8 or more (R77) -/
  | illegalOpcode (cell : Byte)
  /-- the operand cell is 8 or more, whatever the opcode (R80) -/
  | illegalOperandCell (cell : Byte)
  /-- the operand of a combo instruction is 7 (R78) -/
  | illegalCombo (cell : Byte)
  deriving DecidableEq, Repr

/-- The opcode map of R75: the field `op` of the opcode cell and the field `x` of the operand cell. -/
def instrOf (op x : Oct) : Instr :=
  match op with
  | 0#3 => .adv x
  | 1#3 => .bxl x
  | 2#3 => .bst x
  | 3#3 => .jnz x
  | 4#3 => .bxc x
  | 5#3 => .out x
  | 6#3 => .bdv x
  | 7#3 => .cdv x

/-- Bits 2:0 of a cell: the field `op` or `x` (R71). -/
def cellField (c : Byte) : Oct := c.extractLsb' 0 3

/-- Whether a cell's value is 8 or more, that is, any of its bits 7:3, which must be zero, is set (R71, R77, R80). -/
def cellOutOfRange (c : Byte) : Bool := 7 < c.toNat

/-- `decode(c0, c1)` of R88: the opcode cell is checked first, then the operand cell, then the combo value 7 (R81). -/
def decode (c0 c1 : Byte) : Decoded :=
  if cellOutOfRange c0 then .illegalOpcode c0
  else if cellOutOfRange c1 then .illegalOperandCell c1
  else if (instrOf (cellField c0) (cellField c1)).wellFormed then
    .instr (instrOf (cellField c0) (cellField c1))
  else .illegalCombo c1

/-- The field `op` of an instruction (R75). -/
def Instr.op : Instr → Oct
  | .adv _ => 0
  | .bxl _ => 1
  | .bst _ => 2
  | .jnz _ => 3
  | .bxc _ => 4
  | .out _ => 5
  | .bdv _ => 6
  | .cdv _ => 7

/-- The field `x` of an instruction (R73). -/
def Instr.operand : Instr → Oct
  | .adv x => x
  | .bxl x => x
  | .bst x => x
  | .jnz x => x
  | .bxc x => x
  | .out x => x
  | .bdv x => x
  | .cdv x => x

/-- A cell that holds a 3-bit field: bits 7:3 zero (R71). -/
def fieldCell (f : Oct) : Byte := (0#5 ++ f)

/-- The two cells of an instruction, opcode cell then operand cell (R70, R71). -/
def encode (i : Instr) : Byte × Byte := (fieldCell i.op, fieldCell i.operand)

/-- The two cells of the notational word `I = {opcode cell, operand cell}` of spec/opcode_table.json: the opcode cell
is bits 15:8 and lies at the lower index (spec/20_memory.md R55, spec/30_encoding.md R72). (DEDUCED, safe: log 20) -/
def cellsOfWord (nbits w : Nat) : Byte × Byte :=
  (BitVec.ofNat 8 ((w % 2 ^ nbits) / 256), BitVec.ofNat 8 (w % 2 ^ nbits))

/-- The decoder's answer, as an optional instruction. -/
def Decoded.toInstr : Decoded → Option Instr
  | .instr i => some i
  | .illegalOpcode _ => none
  | .illegalOperandCell _ => none
  | .illegalCombo _ => none

/-- The instruction the decoder reads from a word numbered as spec/opcode_table.json numbers it, none where it
refuses. -/
def decodeTableWord (nbits w : Nat) : Option Instr :=
  (decode (cellsOfWord nbits w).1 (cellsOfWord nbits w).2).toInstr

end Sys2Proof
end

