-- ==== Sys2Proof/Machine/Operands.lean ====
section
/-! DEFINITION. Operand resolution (spec/40_step_cycle.md R95 to R97) and the arithmetic of spec/40_step_cycle.md R103,
on natural numbers. -/

namespace Sys2Proof.Machine

/-- `combo(x)` of R95, on the registers as they are before the step; 7 has no value. -/
def combo (x : Oct) (s : State) : Option Nat :=
  match x with
  | 0#3 => some 0
  | 1#3 => some 1
  | 2#3 => some 2
  | 3#3 => some 3
  | 4#3 => some s.a
  | 5#3 => some s.b
  | 6#3 => some s.c
  | 7#3 => none

/-- `literal(x) = x` of R96, zero-extended (spec/30_encoding.md R74). -/
def literal (x : Oct) : Nat := x.toNat

/-- `a >> k = floor(a / 2^k)` for every natural `k`, never reduced (R103, R104). -/
def shiftRight (a k : Nat) : Nat := a >>> k

/-- `a xor b`, bitwise on the binary expansions (R103). -/
def xorNat (a b : Nat) : Nat := a ^^^ b

/-- `v mod 8 = v[2:0]` (R103), a 3-bit value. -/
def low3 (v : Nat) : Oct := BitVec.ofNat 3 v

/-- Run an instruction on its combo operand. The value 7 raises IllegalCombo with FVAL 7 (spec/60_exceptions.md R225);
from a fetch it never comes here, since decode has faulted (spec/30_encoding.md R78). (DEDUCED, safe: log 16) -/
def withCombo (x : Oct) (s : State) (f : Nat → State) : Result :=
  match combo x s with
  | some v => .next (f v)
  | none => .next (s.raise .illegalCombo 7)

end Sys2Proof.Machine
end

