-- ==== Sys2Proof/Machine/Bitwise.lean ====
section
/-! DEFINITION. The bitwise family: bxl, bst, bxc (spec/42_bitwise.md). -/

namespace Sys2Proof.Machine

/-- `bxl x` (R120): `B <- B xor x`, the literal. -/
def execBxl (x : Oct) (s : State) : Result :=
  .next (((s.setB (xorNat s.b (literal x))).advancePc).returns .continues)

/-- `bst x` (R121): `B <- combo(x) mod 8`. -/
def execBst (x : Oct) (s : State) : Result :=
  withCombo x s fun v => ((s.setB (low3 v).toNat).advancePc).returns .continues

/-- `bxc x` (R122): `B <- B xor C`; the operand is ignored. -/
def execBxc (_x : Oct) (s : State) : Result :=
  .next (((s.setB (xorNat s.b s.c)).advancePc).returns .continues)

end Sys2Proof.Machine
end

