-- ==== Sys2Proof/Machine/Jump.lean ====
section
/-! DEFINITION. Control transfer: jnz (spec/43_jump.md). -/

namespace Sys2Proof.Machine

/-- `jnz x` (R130): `pc <- x` if A is not zero, absolute and never checked (R131, R132); else `pc <- pc + 2`. -/
def execJnz (x : Oct) (s : State) : Result :=
  .next ((if s.a ≠ 0 then s.setPc (literal x) else s.advancePc).returns .continues)

end Sys2Proof.Machine
end

