-- ==== Sys2Proof/Machine/Output.lean ====
section
/-! DEFINITION. Output: out (spec/44_output.md). -/

namespace Sys2Proof.Machine

/-- `out x` (R140): emit `combo(x) mod 8`; the step's result is `Output(v)`. -/
def execOut (x : Oct) (s : State) : Result :=
  withCombo x s fun v => ((s.emit (low3 v)).advancePc).returns (.output (low3 v))

end Sys2Proof.Machine
end

