-- ==== Sys2Proof/Machine/Shift.lean ====
section
/-! DEFINITION. The shift family: adv, bdv, cdv (spec/41_shift.md). -/

namespace Sys2Proof.Machine

/-- `adv x` (R110): `A <- A >> combo(x)`. -/
def execAdv (x : Oct) (s : State) : Result :=
  withCombo x s fun k => ((s.setA (shiftRight s.a k)).advancePc).returns .continues

/-- `bdv x` (R111): `B <- A >> combo(x)`. -/
def execBdv (x : Oct) (s : State) : Result :=
  withCombo x s fun k => ((s.setB (shiftRight s.a k)).advancePc).returns .continues

/-- `cdv x` (R112): `C <- A >> combo(x)`. -/
def execCdv (x : Oct) (s : State) : Result :=
  withCombo x s fun k => ((s.setC (shiftRight s.a k)).advancePc).returns .continues

end Sys2Proof.Machine
end

