-- ==== Sys2Proof/Machine/CoreStep.lean ====
section
/-! DEFINITION. The core's one transition, the step of spec/40_step_cycle.md R90, on a launched core. -/

namespace Sys2Proof.Machine

/-- `MemRead(pc, 2)` (spec/20_memory.md R52): the opcode cell and the operand cell, at any pc, even or odd (R55). -/
def State.fetch (s : State) : Option (Byte × Byte) :=
  match s.cell s.pc, s.cell (s.pc + 1) with
  | some c0, some c1 => some (c0, c1)
  | _, _ => none

/-- The outcome of decoding: an instruction is executed, a rejection is raised with the cell it names
(spec/60_exceptions.md R223 to R225). -/
def execDecoded (d : Decoded) (s : State) : Result :=
  match d with
  | .instr i => exec i s
  | .illegalOpcode v => .next (s.raise .illegalOpcode v)
  | .illegalOperandCell v => .next (s.raise .illegalOperandCell v)
  | .illegalCombo v => .next (s.raise .illegalCombo v)

/-- `step()` of R90, in its order: the sticky fault (R94), Halt (R91), the truncated fetch (R92), decode, execute. -/
def coreStep (s : State) : Result :=
  if s.fcause ≠ .noFault then .next (s.returns (.fault s.fcause s.fpc s.fval))
  else if s.len ≤ s.pc then .next (s.returns .halt)
  else if s.len ≤ s.pc + 1 then .next (s.raise .fetchTruncated 0)
  else
    match s.fetch with
    | some (c0, c1) => execDecoded (decode c0 c1) s
    | none => .fault .missingCell

/-- `n` core steps, one after the other: for statements about runs (spec/45_run_commands.md R151). -/
def coreSteps (n : Nat) (s : State) : Result :=
  match n with
  | 0 => .next s
  | k + 1 => andThen (coreStep s) (coreSteps k)

end Sys2Proof.Machine
end

