-- ==== Sys2Proof/Machine/Launch.lean ====
section
/-! DEFINITION. The launch, the reset of the core (spec/10_state.md R44, spec/70_reset_and_hazards.md R260). -/

namespace Sys2Proof.Machine

/-- `v` fits in a width; every number fits in an unbounded one. -/
def fitsWidth (v : Nat) (width : Option Nat) : Bool :=
  match width with
  | none => true
  | some w => decide (v < 2 ^ w)

/-- `n` is within a capacity; every number is within an unbounded one. -/
def withinCap (n : Nat) (cap : Option Nat) : Bool :=
  match cap with
  | none => true
  | some m => decide (n ≤ m)

/-- Why a launch is refused in a finite build, if it is (spec/10_state.md R45, spec/60_exceptions.md R228): a value of A, B
or C is `≥ 2^REGW`; or the program is longer than MAXLEN, or PCW cannot hold its pc, `2^PCW > max(LEN, 7)` of
spec/00_scope.md R8. Nothing else about the arguments is checked.
(log 14: DESIGN CHOICE, log 15: DEDUCED, both unsafe) -/
def launchRefusal (bld : Config.Build) (n a b c : Nat) : Option RefuseReason :=
  if !(fitsWidth a bld.regw && fitsWidth b bld.regw && fitsWidth c bld.regw) then some .tooWide
  else if !(withinCap n bld.maxlen && fitsWidth (max n 7) bld.pcw) then some .tooLong
  else none

/-- PROG and LEN hold the program (R44). -/
def State.loadProgram (s : State) (program : List Byte) : State :=
  { s with prog := Memory.load program, len := program.length }

/-- The rest of a launch, which the trial launches make on the program already loaded (spec/10_state.md R40, R44):
A, B, C as given, `pc <- 0`, the latch cleared, OUT empty, LAUNCHED 1. -/
def State.startRun (s : State) (a b c : Nat) : State :=
  { s with
    a := a, b := b, c := c, pc := 0
    fcause := .noFault, fpc := 0, fval := 0
    launched := true, out := [], sres := none }

/-- `launch(program, a, b, c)` (R44, R260); the search's and the verifier's state is unchanged by it. -/
def State.launch (s : State) (program : List Byte) (a b c : Nat) : State :=
  (s.loadProgram program).startRun a b c

/-- Two cells placed where the core fetches next, on a launched core with nothing in progress: for `withFetchWord`.
(DESIGN CHOICE, safe: log 18) -/
def State.placeInstr (s : State) (c0 c1 : Byte) : State :=
  { s with
    prog := Memory.write (Memory.write s.prog s.pc c0) (s.pc + 1) c1
    len := max s.len (s.pc + 2)
    fcause := .noFault, fpc := 0, fval := 0
    launched := true, activity := .idle, inbox := [] }

end Sys2Proof.Machine
end

