-- ==== Sys2Proof/Machine/SeedSearch.lean ====
section
/-! DEFINITION. The seed search engine, find_minimal_seed (spec/46_seed_search.md R170 to R181), cut into machine steps at
the loop heads of R172 and at each step of a trial. (DESIGN CHOICE, safe: log 10) -/

namespace Sys2Proof.Machine

/-- The values of one round, in the reference order: for `p` in CAND, for `d` in 0..7, `p' = p * 8 + d` (R174, R176). -/
def expand (cand : List Nat) : List Nat :=
  cand.flatMap fun p => (List.range 8).map fun d => p * 8 + d

/-- The start (R171): the program is stored by a launch (spec/90_conflicts.md C7), CAND is `[0]`.
(DEDUCED, unsafe: log 12) -/
def State.startSearch (s : State) (program : List Byte) : State :=
  { (s.launch program 0 0 0) with
    cand := [0], round := 0, shape := false, seed := none
    answer := .noResult, activity := .seedRound }

/-- `while ROUND < LEN`: choose the round's target `PROG[LEN - 1 - ROUND]` (R173), or end with the minimum (R181). -/
def seedRoundStep (s : State) : Result :=
  if s.round < s.len then
    match s.cell (s.len - 1 - s.round) with
    | some t => .next (s.goTo (.seedNext t (expand s.cand) []))
    | none => .fault .missingCell
  else .next ({ s with seed := s.cand.min? }.finish (.seedOk s.cand.min?))

/-- The end of a round: CAND is replaced whole; an empty store ends the search (R180). -/
def endRound (s : State) (next : List Nat) : State :=
  let s' := { s with cand := next, round := s.round + 1 }
  if next = [] then { s' with seed := none }.finish (.seedOk none) else s'.goTo .seedRound

/-- The next trial of the round: a fresh run with `A = p', B = 0, C = 0` (R175), or the end of the round. A finite build
too narrow for `p'` refuses the trial's launch, which ends the search with that refusal. (DESIGN CHOICE, unsafe: log 13)
What the search has written by then stays: PROG and LEN, CAND, ROUND and SHAPE, SEED None, and the registers, latch and
OUT of the last trial. The spec is silent on it, and R228's "changes no state" is read as said of the trial's launch.
(DESIGN CHOICE, unsafe: log 24) -/
def seedNextStep (t : Byte) (todo next : List Nat) (s : State) : Result :=
  match todo with
  | [] => .next (endRound s next)
  | p' :: rest =>
    match launchRefusal s.build s.len p' 0 0 with
    | some why => .next (s.finish (.refused why))
    | none => .next ((s.startRun p' 0 0).goTo (.seedTrial t p' rest next))

/-- After a trial: more than CANDCAP survivors end the search with CandidateOverflow, which is not latched (R186,
spec/60_exceptions.md R226); else the next trial. (DEDUCED, unsafe: log 23) -/
def afterTrial (t : Byte) (todo next : List Nat) (s : State) : State :=
  if withinCap next.length s.build.candcap then s.goTo (.seedNext t todo next)
  else s.finish (.seedOverflow s.round)

/-- What a step of a trial means for the search (R172): the first output is compared with the whole target cell (R177), a
halt before it prunes the branch and sets SHAPE (R178), a fault ends the search (R179). -/
def judgeTrial (t : Byte) (p' : Nat) (todo next : List Nat) (s : State) : State :=
  match s.stepResult with
  | .continues => s
  | .output v => afterTrial t todo (if v.toNat = t.toNat then next ++ [p'] else next) s
  | .halt => afterTrial t todo next { s with shape := true }
  | .fault cause fpc fval => s.finish (.seedFault cause fpc fval s.round p')

/-- One step of a trial. -/
def seedTrialStep (t : Byte) (p' : Nat) (todo next : List Nat) (s : State) : Result :=
  andThen (coreStep s) fun s' => .next (judgeTrial t p' todo next s')

end Sys2Proof.Machine
end

