-- ==== Sys2Proof/Machine/Verifier.lean ====
section
/-! DEFINITION. The verifier, verify (spec/47_verifier.md R200 to R208). -/

namespace Sys2Proof.Machine

/-- The start (R201): a launch, VPOS 0, VRES Pending. -/
def State.startVerify (s : State) (program : List Byte) (a b c : Nat) : State :=
  { (s.launch program a b c) with
    vpos := 0, vres := .pending, answer := .noResult, activity := .verify }

/-- The verification is over: VRES is written and returned. -/
def State.endVerify (s : State) (r : VRes) : State := { s with vres := r }.finish (.verify r)

/-- The `Output(v)` case of R202: an excess output (R204), a wrong value (R203; equality on the whole cell), or one more
position matched. -/
def verifyOutput (v : Oct) (s : State) : Result :=
  if s.len ≤ s.vpos then .next (s.endVerify (.mismatch .excessOutput s.len none (some v)))
  else
    match s.cell s.vpos with
    | some e =>
      if v.toNat ≠ e.toNat then .next (s.endVerify (.mismatch .wrongValue s.vpos (some e) (some v)))
      else .next { s with vpos := s.vpos + 1 }
    | none => .fault .missingCell

/-- The `Halt` case of R202: a premature halt (R205) or success (R208). -/
def verifyHalt (s : State) : Result :=
  if s.vpos < s.len then
    match s.cell s.vpos with
    | some e => .next (s.endVerify (.mismatch .prematureHalt s.vpos (some e) none))
    | none => .fault .missingCell
  else .next (s.endVerify .verified)

/-- What a step of the core means for the verifier (R202); a fault ends the verify with that fault (R207). -/
def judgeVerify (s : State) : Result :=
  match s.stepResult with
  | .continues => .next s
  | .output v => verifyOutput v s
  | .halt => verifyHalt s
  | .fault cause fpc fval => .next (s.endVerify (.fault cause fpc fval s.vpos))

/-- One step of the verification run. -/
def verifyStep (s : State) : Result := andThen (coreStep s) judgeVerify

end Sys2Proof.Machine
end

