-- ==== Sys2Proof/Machine/Commands.lean ====
section
/-! DEFINITION. The commands (spec/45_run_commands.md R150) and the host's side of the machine: accepting a command,
refusing one, and carrying the command in progress one machine step further. -/

namespace Sys2Proof.Machine

/-- What a core step means for `run` (R151, R152): Halt gives the whole OUT, a fault gives the fault and the outputs so
far. -/
def judgeRun (s : State) : State :=
  match s.stepResult with
  | .continues => s
  | .output _ => s
  | .halt => s.finish (.runOk s.out)
  | .fault cause fpc fval => s.finish (.runFault cause fpc fval s.out)

/-- One step of `run`. -/
def runStep (s : State) : Result := andThen (coreStep s) fun s' => .next (judgeRun s')

/-- What a core step means for `run_until_first_output` (R153). -/
def judgeFirst (s : State) : State :=
  match s.stepResult with
  | .continues => s
  | .output v => s.finish (.firstOk (some v))
  | .halt => s.finish (.firstOk none)
  | .fault cause fpc fval => s.finish (.firstFault cause fpc fval)

/-- One step of `run_until_first_output`. -/
def firstStep (s : State) : Result := andThen (coreStep s) fun s' => .next (judgeFirst s')

/-- The command in progress goes one machine step further; with none in progress nothing happens. -/
def advance (s : State) : Result :=
  match s.activity with
  | .idle => .next s
  | .run => runStep s
  | .firstOutput => firstStep s
  | .seedRound => seedRoundStep s
  | .seedNext t todo next => seedNextStep t todo next s
  | .seedTrial t p' todo next => seedTrialStep t p' todo next s
  | .verify => verifyStep s

/-- The `step` command (spec/40_step_cycle.md R90): refused before the first launch (spec/70_reset_and_hazards.md
R261), else one core step and its result. -/
def stepCommand (s : State) : Result :=
  if s.launched = false then .next (s.refuse .notLaunched)
  else andThen (coreStep s) fun s' => .next { s' with answer := .step s'.stepResult }

/-- A command that begins with a launch: refused, changing nothing, where the launch is (R228), else begun. -/
def startWith (refusal : Option RefuseReason) (s started : State) : Result :=
  match refusal with
  | some why => .next (s.refuse why)
  | none => .next started

/-- A command the hardware is free to take. -/
def accept (cmd : Command) (s : State) : Result :=
  match cmd with
  | .launch p a b c =>
    startWith (launchRefusal s.build p.length a b c) s { s.launch p a b c with answer := .noResult }
  | .step => stepCommand s
  | .run p a b c =>
    startWith (launchRefusal s.build p.length a b c) s
      { s.launch p a b c with answer := .noResult, activity := .run }
  | .runUntilFirstOutput p a b c =>
    startWith (launchRefusal s.build p.length a b c) s
      { s.launch p a b c with answer := .noResult, activity := .firstOutput }
  | .findMinimalSeed p => startWith (launchRefusal s.build p.length 0 0 0) s (s.startSearch p)
  | .verify p a b c => startWith (launchRefusal s.build p.length a b c) s (s.startVerify p a b c)

/-- A command from the host: refused as Busy while another is in progress (R150, R228). -/
def issue (cmd : Command) (s : State) : Result :=
  match s.activity with
  | .idle => accept cmd s
  | _ => .next (s.refuse .busy)

/-- One step of the whole machine. The host's next action is taken from the inbox: it waits, or it issues a command.
After the last of them it waits while a command is in progress and issues `step` otherwise, as a host that drives the
core by single steps does (spec/60_exceptions.md R236).
(DESIGN CHOICE: log 5, unsafe past the inbox's end; log 11, safe) -/
def machineStep (s : State) : Result :=
  match s.inbox with
  | [] => if s.activity = .idle then stepCommand s else advance s
  | .wait :: rest => advance { s with inbox := rest }
  | .issue cmd :: rest => issue cmd { s with inbox := rest }

/-- What the host can read of a launched core with no command in progress (spec/70_reset_and_hazards.md R263). -/
structure HostView where
  status : Status
  fcause : FCause
  fpc    : Nat
  fval   : Byte
  len    : Nat
  out    : List Oct
  round  : Nat
  shape  : Bool
  seed   : Option Nat
  vpos   : Nat
  vres   : VRes
  a      : Nat
  b      : Nat
  c      : Nat
  pc     : Nat
  deriving DecidableEq, Repr

/-- What the host reads (R263). -/
inductive HostReading where
  /-- a command is in progress: nothing can be read (R263) -/
  | inProgress
  /-- LAUNCHED = 0: STATUS is IDLE and nothing else can be read (R25, R261) -/
  | notLaunched
  | fields (view : HostView)
  deriving DecidableEq, Repr

/-- The host's reading of the machine. -/
def State.hostReading (s : State) : HostReading :=
  if s.activity ≠ .idle then .inProgress
  else if s.launched = false then .notLaunched
  else .fields
    { status := s.status, fcause := s.fcause, fpc := s.fpc, fval := s.fval, len := s.len, out := s.out
      round := s.round, shape := s.shape, seed := s.seed, vpos := s.vpos, vres := s.vres
      a := s.a, b := s.b, c := s.c, pc := s.pc }

end Sys2Proof.Machine
end

