-- ==== Sys2Proof/Machine/Step.lean ====
section
/-! DEFINITION. One step of the machine, and an instruction placed where it fetches next. -/

namespace Sys2Proof.Machine

/-- One step of the machine: the host's next action and what the hardware does in answer. -/
def step (s : State) : Host.Outcome State Fault Refusal := machineStep s

/-- `s` with the instruction of a table word placed at its pc, on a launched core with nothing in progress and no host
action waiting, so that the very next `step` fetches and runs it. It stands for a launch.
(DESIGN CHOICE, safe: log 18) -/
def State.withFetchWord (s : State) (nbits w : Nat) : State :=
  s.placeInstr (cellsOfWord nbits w).1 (cellsOfWord nbits w).2

end Sys2Proof.Machine
end

