-- ==== Sys2Proof/Safety.lean ====
section
/-! DEFINITION. The predicates the statements use: what the spec says of every reachable state, what a trial's first
output is, and what the search and the verifier hold in the middle of their loops. -/

namespace Sys2Proof.Machine

/-- PROG lists exactly the cells at the indices 0..LEN-1, in order (spec/20_memory.md R50, R51). It is stronger than
the canonical form `Memory.wf`. -/
abbrev State.ProgramLoaded (s : State) : Prop := s.prog.map Prod.fst = List.range s.len

/-- `pc ≤ max(LEN, 7)` (spec/10_state.md R28). -/
abbrev State.PcInRange (s : State) : Prop := s.pc ≤ max s.len 7

/-- The latch holds what the table of spec/60_exceptions.md R221 says: zeros where no fault is recorded; else FPC is the
pc, and the cells at the pc are the ones that raise the cause held, with FVAL the cell it names. -/
def State.LatchConsistent (s : State) : Prop :=
  match s.fcause with
  | .noFault => s.fpc = 0 ∧ s.fval = 0
  | .fetchTruncated => s.fpc = s.pc ∧ s.fval = 0 ∧ s.pc + 1 = s.len
  | .illegalOpcode =>
    s.fpc = s.pc ∧ ∃ c0 c1, s.fetch = some (c0, c1) ∧ decode c0 c1 = .illegalOpcode s.fval
  | .illegalOperandCell =>
    s.fpc = s.pc ∧ ∃ c0 c1, s.fetch = some (c0, c1) ∧ decode c0 c1 = .illegalOperandCell s.fval
  | .illegalCombo =>
    s.fpc = s.pc ∧ ∃ c0 c1, s.fetch = some (c0, c1) ∧ decode c0 c1 = .illegalCombo s.fval

/-- A command in progress has launched the core (spec/45_run_commands.md R155). -/
abbrev State.CommandLaunched (s : State) : Prop := s.activity ≠ .idle → s.launched = true

/-- `u` is a result of the same core state as `s`: registers, pc, latch, LAUNCHED, PROG, LEN, OUT and the last step's
result agree. -/
def SameCore (s u : State) : Prop :=
  s.a = u.a ∧ s.b = u.b ∧ s.c = u.c ∧ s.pc = u.pc ∧ s.fcause = u.fcause ∧ s.fpc = u.fpc ∧ s.fval = u.fval ∧
  s.launched = u.launched ∧ s.prog = u.prog ∧ s.len = u.len ∧ s.out = u.out ∧ s.sres = u.sres

/-- Everything a step of the core leaves alone (spec/60_exceptions.md R240): the program, the search's and the
verifier's state, and the model's own bookkeeping but for the step's result. -/
def SameSurroundings (s u : State) : Prop :=
  s.launched = u.launched ∧ s.prog = u.prog ∧ s.len = u.len ∧ s.cand = u.cand ∧ s.round = u.round ∧
  s.shape = u.shape ∧ s.seed = u.seed ∧ s.vpos = u.vpos ∧ s.vres = u.vres ∧ s.answer = u.answer ∧
  s.activity = u.activity ∧ s.inbox = u.inbox ∧ s.build = u.build

/-- `v` is the first output of the run of the loaded program from `A = p, B = 0, C = 0` (spec/46_seed_search.md R175): OUT
is empty at its start, so it is `[v]` exactly from the first output to the second. -/
def FirstOutput (s : State) (p : Nat) (v : Oct) : Prop :=
  ∃ n u, coreSteps n (s.startRun p 0 0) = .next u ∧ u.out = [v]

/-- The test of R176, R177: the first output from `p` equals the whole cell at `i`. -/
def TestPasses (s : State) (p i : Nat) : Prop :=
  ∃ v e, FirstOutput s p v ∧ s.cell i = some e ∧ v.toNat = e.toNat

/-- `q` has passed `r` tests (spec/46_seed_search.md R183): its `j` leading base-8 digits, `floor(q / 8^(r-j))`, give
`PROG[LEN - j]` as the first output, for `j = 1..r`. -/
def PrefixesPass (s : State) (q r : Nat) : Prop :=
  ∀ j, 1 ≤ j → j ≤ r → TestPasses s (q / 8 ^ (r - j)) (s.len - j)

/-- Where the search stands in the loop over the values of a round: `tried` have been tried, `todo` remain, in the
reference order (R174), and NEXT is taken from those tried, in order (R176). -/
def RoundOrder (s : State) (t : Byte) (todo next : List Nat) : Prop :=
  s.round < s.len ∧ s.cell (s.len - 1 - s.round) = some t ∧ s.seed = none ∧
  ∃ tried, expand s.cand = tried ++ todo ∧ next.Sublist tried

/-- The order and range of the candidate store (spec/46_seed_search.md R182, R183), what SEED holds (R181), and the
search's place in its loops. -/
structure State.SearchOrdered (s : State) : Prop where
  ascending : s.cand.Pairwise (· < ·)
  bounded : ∀ q ∈ s.cand, q < 8 ^ s.round
  seedLeast : ∀ a, s.seed = some a → a ∈ s.cand ∧ ∀ q ∈ s.cand, a ≤ q
  atLoop : match s.activity with
    | .seedRound => s.round ≤ s.len ∧ s.cand ≠ [] ∧ s.seed = none
    | .seedNext t todo next => RoundOrder s t todo next
    | .seedTrial t p' todo next => RoundOrder s t (p' :: todo) next
    | .idle => True
    | .run => True
    | .firstOutput => True
    | .verify => True

/-- The store holds exactly the values below `8^ROUND` that have passed ROUND tests. -/
def CandExact (s : State) : Prop := ∀ q, q ∈ s.cand ↔ q < 8 ^ s.round ∧ PrefixesPass s q s.round

/-- NEXT holds exactly the values tried so far in the round whose first output equals the target (R176, R177). -/
def NextExact (s : State) (t : Byte) (todo next : List Nat) : Prop :=
  s.cell (s.len - 1 - s.round) = some t ∧ s.round < s.len ∧
  ∃ tried, expand s.cand = tried ++ todo ∧
    ∀ q, q ∈ next ↔ q ∈ tried ∧ ∃ v, FirstOutput s q v ∧ v.toNat = t.toNat

/-- What the search has computed at each place of its loops; a trial in progress is a run of the core from `p'` that has
not yet made an output. -/
def State.SearchExact (s : State) : Prop :=
  match s.activity with
  | .seedRound => CandExact s ∧ s.round ≤ s.len
  | .seedNext t todo next => CandExact s ∧ NextExact s t todo next
  | .seedTrial t p' todo next =>
    CandExact s ∧ NextExact s t (p' :: todo) next ∧ s.out = [] ∧
      ∃ n, coreSteps n (s.startRun p' 0 0) = .next s
  | .idle => True
  | .run => True
  | .firstOutput => True
  | .verify => True

/-- During a verify, VPOS counts the outputs of the run, no more than LEN, each equal to its cell (spec/47_verifier.md
R203), and VRES is Pending. -/
def State.VerifyMatched (s : State) : Prop :=
  s.activity = .verify →
    s.vres = .pending ∧ s.vpos ≤ s.len ∧ s.out.length = s.vpos ∧
    ∀ k v, s.out[k]? = some v → ∃ e, s.cell k = some e ∧ v.toNat = e.toNat

/-- A combo instruction, by its opcode cell, whose operand cell is 7: its step raises IllegalCombo and has no other effect
(spec/60_exceptions.md R225, R230). -/
def RaisesIllegalCombo (opcode : Byte) : Prop :=
  ∀ s : State, s.fcause = .noFault → s.cell s.pc = some opcode → s.cell (s.pc + 1) = some 7 →
    coreStep s = .next
      { s with fcause := .illegalCombo, fpc := s.pc, fval := 7, sres := some (.fault .illegalCombo s.pc 7) }

/-- The fetch-time faults that every instruction has (spec/40_step_cycle.md R106), by its opcode cell: the operand cell
does not exist (R92), or it is 8 or more (spec/30_encoding.md R80); the step has no other effect. -/
def RaisesFetchFaults (opcode : Byte) : Prop :=
  ∀ s : State, s.fcause = .noFault → s.cell s.pc = some opcode →
    (s.pc + 1 = s.len → coreStep s = .next
      { s with
        fcause := .fetchTruncated, fpc := s.pc, fval := 0, sres := some (.fault .fetchTruncated s.pc 0) }) ∧
    ∀ c1, s.cell (s.pc + 1) = some c1 → 8 ≤ c1.toNat → coreStep s = .next
      { s with
        fcause := .illegalOperandCell, fpc := s.pc, fval := c1, sres := some (.fault .illegalOperandCell s.pc c1) }

/-- The registers an instruction reads by its opcode or its operand (spec/10_state.md R23). -/
structure Reads where
  a : Bool
  b : Bool
  c : Bool
  deriving DecidableEq, Repr

/-- The table of R23; a combo operand 4, 5, 6 reads A, B, C. -/
def readsOf : Instr → Reads
  | .adv x => { a := true, b := x == 5, c := x == 6 }
  | .bxl _ => { a := false, b := true, c := false }
  | .bst x => { a := x == 4, b := x == 5, c := x == 6 }
  | .jnz _ => { a := true, b := false, c := false }
  | .bxc _ => { a := false, b := true, c := true }
  | .out x => { a := x == 4, b := x == 5, c := x == 6 }
  | .bdv x => { a := true, b := x == 5, c := x == 6 }
  | .cdv x => { a := true, b := x == 5, c := x == 6 }

/-- Two states agree on the registers an instruction reads. -/
def AgreeOnReads (i : Instr) (s u : State) : Prop :=
  ((readsOf i).a = true → s.a = u.a) ∧ ((readsOf i).b = true → s.b = u.b) ∧
  ((readsOf i).c = true → s.c = u.c)

/-- No command is in progress and the host drives the core by `step` commands (spec/60_exceptions.md R236). -/
abbrev State.HostSteps (s : State) : Prop := s.activity = .idle ∧ s.inbox = []

/-- What a launched core's registers and program must satisfy in a finite build (spec/00_scope.md R8,
spec/10_state.md R24, R28, R45). -/
def State.FitsBuild (s : State) : Prop :=
  s.launched = true →
    fitsWidth s.a s.build.regw = true ∧ fitsWidth s.b s.build.regw = true ∧ fitsWidth s.c s.build.regw = true ∧
    fitsWidth (max s.len 7) s.build.pcw = true ∧ withinCap s.len s.build.maxlen = true

/-- The largest bit length among A, B, C, and at least 3: the `m` of spec/10_state.md R24. -/
def State.regBits (s : State) : Nat := max (max (bitlen s.a) (bitlen s.b)) (max (bitlen s.c) 3)

/-- Steps of the whole machine from a state, as Host/Core.lean runs them. -/
def machineRun (n : Nat) (s : State) : Result :=
  match n with
  | 0 => .next s
  | k + 1 => andThen (step s) (machineRun k)

end Sys2Proof.Machine
end

