-- ==== Sys2Proof/Certificates/Slice0/Obligations.lean ====
section
/-! DEFINITION. The statements for the provers, each with the rules of spec/ it rests on. -/

open Sys2Proof Sys2Proof.Machine

/-- spec/30_encoding.md R88, with the checks of R77, R80, R78, R79 in the order of R81. The spec marks R88 derived. -/
def Obligations.DecodeFollowsTheProcedure : Prop :=
  ∀ c0 c1 : Byte,
    (7 < c0.toNat → decode c0 c1 = .illegalOpcode c0) ∧
    (c0.toNat ≤ 7 → 7 < c1.toNat → decode c0 c1 = .illegalOperandCell c1) ∧
    (c0.toNat ≤ 7 → c1.toNat ≤ 7 →
      (c0.toNat ∈ [0, 2, 5, 6, 7] → c1.toNat = 7 → decode c0 c1 = .illegalCombo 7) ∧
      (¬(c0.toNat ∈ [0, 2, 5, 6, 7] ∧ c1.toNat = 7) →
        ∃ i, decode c0 c1 = .instr i ∧ i.op.toNat = c0.toNat ∧ i.operand.toNat = c1.toNat))

/-- Decoding and encoding are inverse on all 59 instructions and on all pairs of cells. -/
def Obligations.DecodeAndEncodeAreInverse : Prop :=
  (∀ i : Instr, i.wellFormed = true → decode (encode i).1 (encode i).2 = .instr i) ∧
  (∀ c0 c1 i, decode c0 c1 = .instr i → i.wellFormed = true ∧ encode i = (c0, c1))

/-- A few words of spec/opcode_table.json and of spec/95_test_vectors.md, written out. -/
def Obligations.SomeTableWordsDecode : Prop :=
  decodeTableWord 16 0x0001 = some (.adv 1) ∧ decodeTableWord 16 0x0107 = some (.bxl 7) ∧
  decodeTableWord 16 0x0206 = some (.bst 6) ∧ decodeTableWord 16 0x0300 = some (.jnz 0) ∧
  decodeTableWord 16 0x0407 = some (.bxc 7) ∧ decodeTableWord 16 0x0504 = some (.out 4) ∧
  decodeTableWord 16 0x0605 = some (.bdv 5) ∧ decodeTableWord 16 0x0706 = some (.cdv 6) ∧
  decodeTableWord 16 0x0507 = none ∧ decodeTableWord 16 0x0408 = none ∧ decodeTableWord 16 0x0800 = none

/-- spec/40_step_cycle.md R90: on a launched core without a fault, the two cells at the pc that decode to an instruction
are executed by the core's step; the host's step command hands the host that step's result (log 5, 9). -/
def Obligations.StepRunsTheDecodedInstruction : Prop :=
  ∀ (s : State) (c0 c1 : Byte) (i : Instr),
    s.fcause = .noFault → s.cell s.pc = some c0 → s.cell (s.pc + 1) = some c1 → decode c0 c1 = .instr i →
    coreStep s = exec i s ∧
    (s.launched = true → s.HostSteps →
      step s = andThen (exec i s) fun t => .next { t with answer := .step t.stepResult })

/-- What the machine does with the host's next action (log 5, 11): it carries on the command in progress while the host
waits, takes a command when it is free, and refuses one as Busy when it is not. -/
def Obligations.MachineFollowsTheHost : Prop :=
  ∀ (s : State) (rest : List HostAction) (cmd : Command),
    (s.inbox = .wait :: rest → step s = advance { s with inbox := rest }) ∧
    (s.inbox = .issue cmd :: rest → s.activity = .idle → step s = accept cmd { s with inbox := rest }) ∧
    (s.inbox = .issue cmd :: rest → s.activity ≠ .idle →
      step s = .next { s with inbox := rest, answer := .refused .busy }) ∧
    (s.inbox = [] → s.activity ≠ .idle → step s = advance s) ∧
    (s.HostSteps → step s = accept .step s)

/-- spec/40_step_cycle.md R95; the value 7 has no value and decodes to the error IllegalCombo under each of the five combo
instructions, so it never comes to `combo` from a decoded instruction. -/
def Obligations.ComboTable : Prop :=
  ∀ s : State, combo 0 s = some 0 ∧ combo 1 s = some 1 ∧ combo 2 s = some 2 ∧ combo 3 s = some 3 ∧
    combo 4 s = some s.a ∧ combo 5 s = some s.b ∧ combo 6 s = some s.c ∧ combo 7 s = none ∧
    (∀ op ∈ [(0 : Byte), 2, 5, 6, 7], decode op 7 = .illegalCombo 7) ∧
    ∀ c0 c1 : Byte, decode c0 c1 ∉
      [.instr (.adv 7), .instr (.bst 7), .instr (.out 7), .instr (.bdv 7), .instr (.cdv 7)]

/-- spec/41_shift.md R110. -/
def Obligations.AdvEffect : Prop :=
  (∀ x : Oct, decode 0 (fieldCell x) = if x = 7 then .illegalCombo 7 else .instr (.adv x)) ∧
  RaisesIllegalCombo 0 ∧ RaisesFetchFaults 0 ∧
  ∀ s : State,
    (∀ x : Oct, x ≠ 7 → ∃ k, combo x s = some k ∧
      exec (.adv x) s = .next { s with a := s.a / 2 ^ k, pc := s.pc + 2, sres := some .continues } ∧
      (bitlen s.a ≤ k → s.a / 2 ^ k = 0)) ∧
    exec (.adv 0) s = .next { s with pc := s.pc + 2, sres := some .continues } ∧
    exec (.adv 4) s = .next { s with a := 0, pc := s.pc + 2, sres := some .continues }

/-- spec/41_shift.md R111. -/
def Obligations.BdvEffect : Prop :=
  (∀ x : Oct, decode 6 (fieldCell x) = if x = 7 then .illegalCombo 7 else .instr (.bdv x)) ∧
  RaisesIllegalCombo 6 ∧ RaisesFetchFaults 6 ∧
  ∀ s : State,
    (∀ x : Oct, x ≠ 7 → ∃ k, combo x s = some k ∧
      exec (.bdv x) s = .next { s with b := s.a / 2 ^ k, pc := s.pc + 2, sres := some .continues }) ∧
    exec (.bdv 0) s = .next { s with b := s.a, pc := s.pc + 2, sres := some .continues } ∧
    exec (.bdv 4) s = .next { s with b := 0, pc := s.pc + 2, sres := some .continues } ∧
    exec (.bdv 5) s = .next { s with b := s.a / 2 ^ s.b, pc := s.pc + 2, sres := some .continues }

/-- spec/41_shift.md R112. -/
def Obligations.CdvEffect : Prop :=
  (∀ x : Oct, decode 7 (fieldCell x) = if x = 7 then .illegalCombo 7 else .instr (.cdv x)) ∧
  RaisesIllegalCombo 7 ∧ RaisesFetchFaults 7 ∧
  ∀ s : State,
    (∀ x : Oct, x ≠ 7 → ∃ k, combo x s = some k ∧
      exec (.cdv x) s = .next { s with c := s.a / 2 ^ k, pc := s.pc + 2, sres := some .continues }) ∧
    exec (.cdv 0) s = .next { s with c := s.a, pc := s.pc + 2, sres := some .continues } ∧
    exec (.cdv 6) s = .next { s with c := s.a / 2 ^ s.c, pc := s.pc + 2, sres := some .continues } ∧
    (bitlen s.a ≤ s.b →
      exec (.cdv 5) s = .next { s with c := 0, pc := s.pc + 2, sres := some .continues })

/-- spec/42_bitwise.md R120. -/
def Obligations.BxlEffect : Prop :=
  (∀ x : Oct, decode 1 (fieldCell x) = .instr (.bxl x)) ∧
  RaisesFetchFaults 1 ∧
  ∀ (s : State) (x : Oct),
    exec (.bxl x) s = .next { s with b := s.b ^^^ x.toNat, pc := s.pc + 2, sres := some .continues } ∧
    (s.b ^^^ x.toNat) / 8 = s.b / 8 ∧ s.b ^^^ x.toNat ≤ s.b + 7 ∧ (s.b ^^^ x.toNat) ^^^ x.toNat = s.b ∧
    exec (.bxl 0) s = .next { s with pc := s.pc + 2, sres := some .continues }

/-- spec/42_bitwise.md R121. -/
def Obligations.BstEffect : Prop :=
  (∀ x : Oct, decode 2 (fieldCell x) = if x = 7 then .illegalCombo 7 else .instr (.bst x)) ∧
  RaisesIllegalCombo 2 ∧ RaisesFetchFaults 2 ∧
  ∀ s : State,
    (∀ x : Oct, x ≠ 7 → ∃ v, combo x s = some v ∧ v % 8 ≤ 7 ∧
      exec (.bst x) s = .next { s with b := v % 8, pc := s.pc + 2, sres := some .continues }) ∧
    (∀ x : Oct, x.toNat ≤ 3 →
      exec (.bst x) s = .next { s with b := x.toNat, pc := s.pc + 2, sres := some .continues }) ∧
    exec (.bst 5) s = .next { s with b := s.b % 8, pc := s.pc + 2, sres := some .continues }

/-- spec/42_bitwise.md R122. -/
def Obligations.BxcEffect : Prop :=
  (∀ x : Oct, decode 4 (fieldCell x) = .instr (.bxc x)) ∧
  RaisesFetchFaults 4 ∧
  ∀ (s : State) (x : Oct),
    exec (.bxc x) s = .next { s with b := s.b ^^^ s.c, pc := s.pc + 2, sres := some .continues } ∧
    (s.c = 0 → s.b ^^^ s.c = s.b) ∧ (s.b = s.c → s.b ^^^ s.c = 0) ∧
    bitlen (s.b ^^^ s.c) ≤ max (bitlen s.b) (bitlen s.c)

/-- spec/43_jump.md R130, and the law of R133: the jump that fires adds nothing, the one that does not adds 2. -/
def Obligations.JnzEffect : Prop :=
  (∀ x : Oct, decode 3 (fieldCell x) = .instr (.jnz x)) ∧
  RaisesFetchFaults 3 ∧
  ∀ (s : State) (x : Oct),
    (s.a ≠ 0 → exec (.jnz x) s = .next { s with pc := x.toNat, sres := some .continues }) ∧
    (s.a = 0 → exec (.jnz x) s = .next { s with pc := s.pc + 2, sres := some .continues })

/-- spec/44_output.md R140. -/
def Obligations.OutEffect : Prop :=
  (∀ x : Oct, decode 5 (fieldCell x) = if x = 7 then .illegalCombo 7 else .instr (.out x)) ∧
  RaisesIllegalCombo 5 ∧ RaisesFetchFaults 5 ∧
  ∀ (s : State) (x : Oct), x ≠ 7 → ∃ (n : Nat) (v : Oct), combo x s = some n ∧ v.toNat = n % 8 ∧
    (x.toNat ≤ 3 → v = x) ∧
    exec (.out x) s = .next { s with out := s.out ++ [v], pc := s.pc + 2, sres := some (.output v) }

/-- spec/41_shift.md R113: bdv and cdv with the same operand, not 5, from the same A leave B = C. -/
def Obligations.BdvThenCdvAgree : Prop :=
  ∀ (s t u : State) (x : Oct), x ≠ 5 → x ≠ 7 →
    exec (.bdv x) s = .next t → exec (.cdv x) t = .next u → u.b = u.c ∧ u.a = s.a ∧ u.b ≤ s.a

/-- The frame of every instruction: the writes column of spec/10_state.md R23, and what spec/60_exceptions.md R240 keeps
out of a program's reach; memory is read cell by cell. -/
def Obligations.InstructionWritesOnlyItsDestination : Prop :=
  ∀ (i : Instr) (s t : State), i.wellFormed = true → exec i s = .next t →
    ((∀ x, i ≠ .adv x) → t.a = s.a) ∧
    ((∀ x, i ≠ .bxl x ∧ i ≠ .bst x ∧ i ≠ .bxc x ∧ i ≠ .bdv x) → t.b = s.b) ∧
    ((∀ x, i ≠ .cdv x) → t.c = s.c) ∧
    ((∀ x, i ≠ .out x) → t.out = s.out) ∧
    t.fcause = s.fcause ∧ t.fpc = s.fpc ∧ t.fval = s.fval ∧
    SameSurroundings s t ∧ ∀ k, Memory.read t.prog k = Memory.read s.prog k

/-- The reads columns of spec/10_state.md R23: the value written, the value emitted and the new pc depend on no register
that the table does not list for the instruction. -/
def Obligations.InstructionReadsOnlyItsRegisters : Prop :=
  ∀ (i : Instr) (s u t v : State), i.wellFormed = true → AgreeOnReads i s u → s.pc = u.pc →
    exec i s = .next t → exec i u = .next v →
    t.pc = v.pc ∧ t.sres = v.sres ∧
    ((∃ x, i = .adv x) → t.a = v.a) ∧
    ((∃ x, i = .bxl x ∨ i = .bst x ∨ i = .bxc x ∨ i = .bdv x) → t.b = v.b) ∧
    ((∃ x, i = .cdv x) → t.c = v.c) ∧
    (s.out = u.out → t.out = v.out)

/-- The pc and the step's result after every instruction: spec/40_step_cycle.md R98 and R99. -/
def Obligations.PcAndResultOfEveryInstruction : Prop :=
  ∀ (i : Instr) (s t : State), i.wellFormed = true → exec i s = .next t →
    (∀ x, i = .jnz x → s.a ≠ 0 → t.pc = x.toNat) ∧
    ((∀ x, i ≠ .jnz x) ∨ s.a = 0 → t.pc = s.pc + 2) ∧
    ((∀ x, i ≠ .out x) → t.sres = some .continues) ∧
    ((∃ x, i = .out x) → ∃ v, t.sres = some (.output v) ∧ t.out = s.out ++ [v])

/-- A combo operand of 7 in a term handed to exec raises IllegalCombo: the model's reading, since from a fetch decode has
faulted before (log 16); exec reaches a next state on every instruction and state. -/
def Obligations.ExecAlwaysReachesANextState : Prop :=
  ∀ (i : Instr) (s : State), ∃ t, exec i s = .next t ∧
    (i.wellFormed = false →
      t = { s with
            fcause := .illegalCombo, fpc := s.pc, fval := 7, sres := some (.fault .illegalCombo s.pc 7) })

/-- spec/10_state.md R24: no instruction lengthens the registers. The spec marks R24 derived. -/
def Obligations.RegisterBitsNeverGrow : Prop :=
  ∀ (i : Instr) (s t : State), i.wellFormed = true → exec i s = .next t → t.regBits ≤ s.regBits

/-- spec/40_step_cycle.md R105: along any number of steps of a run, A never grows. The spec marks R105 derived. -/
def Obligations.RegisterANeverGrows : Prop :=
  ∀ (n : Nat) (s t : State), coreSteps n s = .next t → t.a ≤ s.a

/-- spec/40_step_cycle.md R91: a step at or past the end changes nothing and returns Halt, and so does every later one;
no other step of a core without a fault returns Halt (R99, which the spec marks derived). -/
def Obligations.HaltIsPermanent : Prop :=
  ∀ s : State, s.fcause = .noFault →
    (s.len ≤ s.pc → ∀ n, coreSteps (n + 1) s = .next { s with sres := some .halt }) ∧
    (∀ t, coreStep s = .next t → t.sres = some .halt → s.len ≤ s.pc)

/-- spec/10_state.md R33, spec/40_step_cycle.md R94: after a fault every step returns the same fault and changes
nothing. -/
def Obligations.FaultIsSticky : Prop :=
  ∀ s : State, s.fcause ≠ .noFault →
    (∀ n, coreSteps (n + 1) s = .next { s with sres := some (.fault s.fcause s.fpc s.fval) }) ∧
    (s.launched = true → s.HostSteps → ∀ n, machineRun (n + 1) s = .next
      { s with
        sres := some (.fault s.fcause s.fpc s.fval), answer := .step (.fault s.fcause s.fpc s.fval) })

/-- Which fault a step raises, and what it records: spec/60_exceptions.md R222 to R225 in the order of R235. -/
def Obligations.FaultsOfAFetch : Prop :=
  ∀ s : State, s.fcause = .noFault →
    (s.pc + 1 = s.len → coreStep s = .next
      { s with
        fcause := .fetchTruncated, fpc := s.pc, fval := 0, sres := some (.fault .fetchTruncated s.pc 0) }) ∧
    ∀ c0 c1, s.cell s.pc = some c0 → s.cell (s.pc + 1) = some c1 →
      (8 ≤ c0.toNat → coreStep s = .next
        { s with
          fcause := .illegalOpcode, fpc := s.pc, fval := c0, sres := some (.fault .illegalOpcode s.pc c0) }) ∧
      (c0.toNat < 8 → 8 ≤ c1.toNat → coreStep s = .next
        { s with
          fcause := .illegalOperandCell, fpc := s.pc, fval := c1
          sres := some (.fault .illegalOperandCell s.pc c1) }) ∧
      (c0.toNat ∈ [0, 2, 5, 6, 7] → c1.toNat = 7 → coreStep s = .next
        { s with
          fcause := .illegalCombo, fpc := s.pc, fval := 7, sres := some (.fault .illegalCombo s.pc 7) })

/-- spec/60_exceptions.md R230, R231: a step that raises a fault writes the latch and nothing else but its result, FPC is
the pc of the faulting instruction, and a step that raises none leaves the latch alone. -/
def Obligations.FaultsArePrecise : Prop :=
  ∀ s t : State, s.fcause = .noFault → coreStep s = .next t →
    (t.fcause ≠ .noFault ∧
      t = { s with
            fcause := t.fcause, fpc := s.pc, fval := t.fval, sres := some (.fault t.fcause s.pc t.fval) }) ∨
    (t.fcause = .noFault ∧ t.fpc = s.fpc ∧ t.fval = s.fval ∧ ∀ k p v, t.sres ≠ some (.fault k p v))

/-- spec/10_state.md R36, spec/44_output.md R141: a step appends its output to OUT, and nothing else changes OUT. -/
def Obligations.OutputIsAppendOnly : Prop :=
  ∀ s t : State, coreStep s = .next t →
    (∃ v, t.sres = some (.output v) ∧ t.out = s.out ++ [v]) ∨
    ((∀ v, t.sres ≠ some (.output v)) ∧ t.out = s.out)

/-- spec/10_state.md R29: an even pc stays even unless a jnz with an odd operand fires. The spec marks it derived. -/
def Obligations.EvenPcStaysEven : Prop :=
  ∀ s t : State, s.pc % 2 = 0 → coreStep s = .next t →
    (∀ c0 c1 x, s.fetch = some (c0, c1) → decode c0 c1 = .instr (.jnz x) → s.a ≠ 0 → x.toNat % 2 = 0) →
    t.pc % 2 = 0

/-- spec/43_jump.md R133, spec/45_run_commands.md R157: a jnz to its own address with A not zero executes for ever. -/
def Obligations.JumpToItselfNeverEnds : Prop :=
  ∀ (s : State) (x : Oct), s.fcause = .noFault → s.a ≠ 0 → s.pc = x.toNat →
    s.cell s.pc = some 3 → s.cell (s.pc + 1) = some (fieldCell x) →
    ∀ n, coreSteps (n + 1) s = .next { s with sres := some .continues }

/-- spec/45_run_commands.md R159, its first sentence: a run of a program without a jnz halts after at most LEN / 2
instruction steps, unless it faults on the next one. -/
def Obligations.RunWithoutJnzEnds : Prop :=
  ∀ (s : State) (program : List Byte) (a b c : Nat), (∀ k, program[2 * k]? ≠ some 3) →
    ∃ n u, n ≤ program.length / 2 ∧ coreSteps n (s.launch program a b c) = .next u ∧
      (u.status = .halt ∨ ∃ w, coreStep u = .next w ∧ w.status = .fault)

/-- spec/10_state.md R40, spec/20_memory.md R64: what a core step does depends on the core state alone. -/
def Obligations.CoreStepDependsOnTheCoreAlone : Prop :=
  ∀ (n : Nat) (s u t : State), SameCore s u → coreSteps n s = .next t →
    ∃ v, coreSteps n u = .next v ∧ SameCore t v ∧ SameSurroundings s t ∧ SameSurroundings u v

/-- spec/10_state.md R44: every piece of state after a launch that the build accepts, PROG cell by cell (the spec marks the
STATUS row derived, and the pc recovered from its example); and what the start of a search (spec/46_seed_search.md R171)
and of a verify (spec/47_verifier.md R201) sets. -/
def Obligations.LaunchSetsTheCore : Prop :=
  ∀ (s : State) (program : List Byte) (a b c : Nat),
    (launchRefusal s.build program.length a b c = none →
      ∃ t, accept (.launch program a b c) s = .next t ∧
        t.a = a ∧ t.b = b ∧ t.c = c ∧ t.pc = 0 ∧ t.fcause = .noFault ∧ t.fpc = 0 ∧ t.fval = 0 ∧
        t.launched = true ∧ t.out = [] ∧ t.len = program.length ∧ (∀ i, t.cell i = program[i]?) ∧
        t.status = (if program.length = 0 then .halt else .run) ∧
        t.cand = s.cand ∧ t.round = s.round ∧ t.shape = s.shape ∧ t.seed = s.seed ∧
        t.vpos = s.vpos ∧ t.vres = s.vres) ∧
    (launchRefusal s.build program.length 0 0 0 = none →
      ∃ t, accept (.findMinimalSeed program) s = .next t ∧ t.len = program.length ∧
        (∀ i, t.cell i = program[i]?) ∧ t.cand = [0] ∧ t.round = 0 ∧ t.shape = false ∧ t.seed = none ∧
        t.vpos = s.vpos ∧ t.vres = s.vres) ∧
    (launchRefusal s.build program.length a b c = none →
      ∃ t, accept (.verify program a b c) s = .next t ∧ SameCore t (s.launch program a b c) ∧
        t.vpos = 0 ∧ t.vres = .pending ∧
        t.cand = s.cand ∧ t.round = s.round ∧ t.shape = s.shape ∧ t.seed = s.seed)

/-- spec/10_state.md R40, R25, spec/70_reset_and_hazards.md R260, R261: nothing of an earlier run, and no value the model
names before the first launch (log 1, 2), reaches the state after a launch; before it the host can read nothing. -/
def Obligations.LaunchForgetsTheEarlierCore : Prop :=
  ∀ (s u : State),
    (∀ program a b c, SameCore (s.launch program a b c) (u.launch program a b c)) ∧
    (s.activity = .idle → s.launched = false → s.hostReading = .notLaunched) ∧
    (s.activity ≠ .idle → s.hostReading = .inProgress)

/-- spec/70_reset_and_hazards.md R261: a step before the first launch is refused with NotLaunched and changes nothing. -/
def Obligations.UnlaunchedStepIsRefused : Prop :=
  ∀ (n : Nat) (s : State), s.launched = false → s.HostSteps →
    machineRun (n + 1) s = .next { s with answer := .refused .notLaunched }

/-- spec/60_exceptions.md R228: a command is refused for one of the four reasons, exactly where it says, and then nothing
changes but the answer; in a build of unbounded widths only NotLaunched and Busy occur. -/
def Obligations.RefusedCommandsChangeNothing : Prop :=
  ∀ (cmd : Command) (s t : State) (why : RefuseReason), issue cmd s = .next t → t.answer = .refused why →
    t = { s with answer := .refused why } ∧
    (why = .busy ↔ s.activity ≠ .idle) ∧
    (why = .notLaunched → cmd = .step ∧ s.launched = false) ∧
    (s.build = Config.normative → why = .notLaunched ∨ why = .busy)

/-- spec/10_state.md R45, spec/60_exceptions.md R228: when a build refuses a launch. The order of the two reasons and the
place of PCW are the model's (log 14, 15). -/
def Obligations.WhenALaunchIsRefused : Prop :=
  ∀ (bld : Config.Build) (n a b c : Nat),
    (launchRefusal bld n a b c = some .tooWide ↔ ∃ w, bld.regw = some w ∧ (2 ^ w ≤ a ∨ 2 ^ w ≤ b ∨ 2 ^ w ≤ c)) ∧
    (launchRefusal bld n a b c ≠ some .tooWide →
      (launchRefusal bld n a b c = some .tooLong ↔
        (∃ m, bld.maxlen = some m ∧ m < n) ∨ ∃ w, bld.pcw = some w ∧ 2 ^ w ≤ max n 7)) ∧
    (launchRefusal bld n a b c = none ∨ launchRefusal bld n a b c = some .tooWide ∨
      launchRefusal bld n a b c = some .tooLong)

/-- spec/20_memory.md R62, R53: PROG and LEN change only where the host issues a command to a free machine. -/
def Obligations.ProgramIsImmutableDuringACommand : Prop :=
  ∀ s t : State, step s = .next t →
    (s.activity ≠ .idle ∨ (∀ cmd rest, s.inbox = .issue cmd :: rest → cmd = .step)) →
    t.prog = s.prog ∧ t.len = s.len

/-- Everything the invariants say holds in the state before the first launch, whatever the host will do and whatever the
build is. The spec gives LAUNCHED (R42, R261), STATUS and VRES (R206) there; every clause about another field (the pc, the
latch, PROG, LEN, CAND, ROUND, SEED) rests on a value the model chose, where R42 leaves it unspecified: DESIGN CHOICE,
log 1, 2, 3. -/
def Obligations.InvariantsHoldAtReset : Prop :=
  ∀ (inbox : List HostAction) (build : Config.Build) (s : State),
    s = { State.reset with inbox := inbox, build := build } →
    s.ProgramLoaded ∧ Memory.wf s.prog = true ∧ s.PcInRange ∧ s.LatchConsistent ∧ s.CommandLaunched ∧
    s.FitsBuild ∧ s.SearchOrdered ∧ s.SearchExact ∧ s.VerifyMatched ∧
    s.launched = false ∧ s.status = .idle ∧ s.vres = .pending

/-- spec/20_memory.md R50, R51: every step keeps the program memory exactly the indices 0..LEN-1, so it stays in the
canonical form. -/
def Obligations.StepKeepsProgramLoaded : Prop :=
  ∀ s t : State, s.ProgramLoaded → step s = .next t → t.ProgramLoaded ∧ Memory.wf t.prog = true

/-- No run ever stops: from the state before the first launch, whatever the host does and whatever the build is, every
number of steps reaches a next state (spec/20_memory.md R54: the indices read are in range by construction). -/
def Obligations.NoRunIsEverStopped : Prop :=
  (∀ s : State, s.ProgramLoaded → ∃ t, step s = .next t) ∧
  ∀ (inbox : List HostAction) (build : Config.Build) (n : Nat),
    ∃ t, machineRun n { State.reset with inbox := inbox, build := build } = .next t

/-- spec/10_state.md R28: every step keeps `pc ≤ max(LEN, 7)`, so a pc of PCW bits with `2^PCW > max(LEN, 7)` never
overflows. -/
def Obligations.StepKeepsPcInRange : Prop :=
  ∀ s t : State, s.PcInRange → step s = .next t →
    t.PcInRange ∧ ∀ w, max t.len 7 < 2 ^ w → t.pc < 2 ^ w

/-- spec/60_exceptions.md R221: every step keeps the latch as the table says, and a command in progress launched. -/
def Obligations.StepKeepsTheLatchConsistent : Prop :=
  ∀ s t : State, s.LatchConsistent → s.CommandLaunched → step s = .next t →
    t.LatchConsistent ∧ t.CommandLaunched

/-- spec/10_state.md R24, R45, spec/00_scope.md R8: in a finite build of at least 3 register bits, every step keeps the
registers within REGW and the program within MAXLEN and PCW; nothing is ever truncated. -/
def Obligations.StepKeepsTheBuildsWidths : Prop :=
  ∀ s t : State, (∀ w, s.build.regw = some w → 3 ≤ w) → s.FitsBuild → s.CommandLaunched → step s = .next t →
    t.FitsBuild ∧ t.build = s.build

/-- spec/10_state.md R37 to R39, R44: only a search writes CAND, ROUND, SHAPE and SEED, and only a verify writes VPOS
and VRES, whatever else the machine does. -/
def Obligations.EachEngineWritesOnlyItsOwnState : Prop :=
  ∀ s t : State, step s = .next t →
    (s.activity ∈ [.idle, .run, .firstOutput, .verify] →
      (∀ p rest, s.inbox ≠ .issue (.findMinimalSeed p) :: rest) →
      t.cand = s.cand ∧ t.round = s.round ∧ t.shape = s.shape ∧ t.seed = s.seed) ∧
    (s.activity ≠ .verify → (∀ p a b c rest, s.inbox ≠ .issue (.verify p a b c) :: rest) →
      t.vpos = s.vpos ∧ t.vres = s.vres)

/-- spec/46_seed_search.md R182, R183, R181: every step keeps CAND strictly ascending and below `8^ROUND`, with at most
`8^ROUND` elements, SEED its least element, and the search in its reference order. -/
def Obligations.StepKeepsTheSearchOrdered : Prop :=
  ∀ s t : State, s.SearchOrdered → step s = .next t → t.SearchOrdered ∧ t.cand.length ≤ 8 ^ t.round

/-- spec/46_seed_search.md R174 to R178, R183: every step of a search keeps CAND exactly the values below `8^ROUND` that
have passed ROUND tests, so no survivor is ever dropped and none is invented. -/
def Obligations.StepKeepsTheSearchExact : Prop :=
  ∀ s t : State, s.SearchExact → step s = .next t → t.SearchExact

/-- spec/46_seed_search.md R181, R180, R183: what find_minimal_seed answers, for every program: the least value below
`8^LEN` that passes LEN tests, or None where no value does. It is the algorithm's answer, not the goal of R170. -/
def Obligations.FindMinimalSeedAnswersTheLeast : Prop :=
  ∀ (s t : State) (program : List Byte) (n : Nat),
    s.activity = .idle → s.inbox = [.issue (.findMinimalSeed program)] → machineRun (n + 1) s = .next t →
    (∀ a, t.answer = .seedOk (some a) →
      t.seed = some a ∧ a < 8 ^ program.length ∧ PrefixesPass (s.loadProgram program) a program.length ∧
      ∀ q, q < 8 ^ program.length → PrefixesPass (s.loadProgram program) q program.length → a ≤ q) ∧
    (t.answer = .seedOk none →
      t.seed = none ∧ ∀ q, q < 8 ^ program.length → ¬ PrefixesPass (s.loadProgram program) q program.length)

/-- spec/46_seed_search.md R172, the cases of a trial: R176 and R177 (match and mismatch, on the whole cell), R186
(CandidateOverflow, not latched), R178 (pruned, SHAPE set), R179 (the fault ends the search). That
CAND, ROUND, SHAPE and SEED are kept at CandidateOverflow is the model's choice, not the spec's words (log 23). -/
def Obligations.WhatATrialStepMeans : Prop :=
  ∀ (s u : State) (tgt : Byte) (p' : Nat) (todo next : List Nat),
    s.inbox = [] → s.activity = .seedTrial tgt p' todo next → coreStep s = .next u →
    (u.sres = some .continues → step s = .next u) ∧
    (∀ v nxt, u.sres = some (.output v) → nxt = (if v.toNat = tgt.toNat then next ++ [p'] else next) →
      ((s.build.candcap = none ∨ ∃ m, s.build.candcap = some m ∧ nxt.length ≤ m) →
        step s = .next { u with activity := .seedNext tgt todo nxt }) ∧
      (∀ m, s.build.candcap = some m → m < nxt.length →
        step s = .next { u with activity := .idle, answer := .seedOverflow s.round } ∧
        u.fcause = s.fcause ∧ u.fpc = s.fpc ∧ u.fval = s.fval)) ∧
    (u.sres = some .halt → withinCap next.length s.build.candcap = true →
      step s = .next { u with shape := true, activity := .seedNext tgt todo next }) ∧
    (∀ k p v, u.sres = some (.fault k p v) →
      step s = .next { u with activity := .idle, answer := .seedFault k p v s.round p' })

/-- spec/46_seed_search.md R173, R174, R175, R180, R181: the loop heads of the search: the target of a round and its
values in order, the fresh run of a trial, the end of a round, and the end of the search. -/
def Obligations.LoopsOfTheSearch : Prop :=
  ∀ s : State, s.inbox = [] →
    (∀ tgt, s.activity = .seedRound → s.round < s.len → s.cell (s.len - 1 - s.round) = some tgt →
      step s = .next { s with activity := .seedNext tgt (expand s.cand) [] }) ∧
    (s.activity = .seedRound → s.len ≤ s.round →
      step s = .next { s with seed := s.cand.min?, answer := .seedOk s.cand.min?, activity := .idle }) ∧
    (∀ tgt p' todo next, s.activity = .seedNext tgt (p' :: todo) next →
      launchRefusal s.build s.len p' 0 0 = none →
      step s = .next
        { s with
          a := p', b := 0, c := 0, pc := 0, fcause := .noFault, fpc := 0, fval := 0, launched := true
          out := [], sres := none, activity := .seedTrial tgt p' todo next }) ∧
    (∀ tgt next, s.activity = .seedNext tgt [] next → next ≠ [] →
      step s = .next { s with cand := next, round := s.round + 1, activity := .seedRound }) ∧
    (∀ tgt, s.activity = .seedNext tgt [] [] →
      step s = .next
        { s with cand := [], round := s.round + 1, seed := none, answer := .seedOk none, activity := .idle }) ∧
    expand s.cand = s.cand.flatMap fun p =>
      [p * 8, p * 8 + 1, p * 8 + 2, p * 8 + 3, p * 8 + 4, p * 8 + 5, p * 8 + 6, p * 8 + 7]

/-- spec/46_seed_search.md R192: the search of the empty program answers `Some(0)`. That its start is a launch is the
model's reading (log 12). -/
def Obligations.SearchOfTheEmptyProgram : Prop :=
  ∀ s : State, s.activity = .idle → s.inbox = [.issue (.findMinimalSeed [])] →
    launchRefusal s.build 0 0 0 0 = none →
    ∃ t, machineRun 2 s = .next t ∧ t.answer = .seedOk (some 0) ∧ t.seed = some 0 ∧ t.shape = false ∧
      t.cand = [0] ∧ t.round = 0 ∧ t.activity = .idle

/-- spec/47_verifier.md R203: every step of a verify keeps VPOS the number of outputs, each equal to its cell. -/
def Obligations.StepKeepsTheVerifierMatched : Prop :=
  ∀ s t : State, s.VerifyMatched → step s = .next t → t.VerifyMatched

/-- spec/47_verifier.md R202, the cases of the loop. -/
def Obligations.WhatAVerifyStepMeans : Prop :=
  ∀ s u : State, s.inbox = [] → s.activity = .verify → coreStep s = .next u →
    (u.sres = some .continues → step s = .next u) ∧
    (∀ v, u.sres = some (.output v) →
      (s.len ≤ s.vpos → step s = .next (u.endVerify (.mismatch .excessOutput s.len none (some v)))) ∧
      (∀ e, s.vpos < s.len → s.cell s.vpos = some e → v.toNat ≠ e.toNat →
        step s = .next (u.endVerify (.mismatch .wrongValue s.vpos (some e) (some v)))) ∧
      (∀ e, s.vpos < s.len → s.cell s.vpos = some e → v.toNat = e.toNat →
        step s = .next { u with vpos := s.vpos + 1 })) ∧
    (u.sres = some .halt →
      (∀ e, s.vpos < s.len → s.cell s.vpos = some e →
        step s = .next (u.endVerify (.mismatch .prematureHalt s.vpos (some e) none))) ∧
      (s.len ≤ s.vpos → step s = .next (u.endVerify .verified))) ∧
    (∀ k p v, u.sres = some (.fault k p v) → step s = .next (u.endVerify (.fault k p v s.vpos)))

/-- spec/47_verifier.md R206: the fields of every result of a verify. -/
def Obligations.FieldsOfTheVerifiersResult : Prop :=
  ∀ s t : State, s.VerifyMatched → s.inbox = [] → s.activity = .verify → step s = .next t →
    (t.activity = .idle → t.answer = .verify t.vres ∧ t.vres ≠ .pending) ∧
    (∀ pos e v, t.vres = .mismatch .wrongValue pos e v → pos < t.len ∧ e = t.cell pos ∧
      ∃ ev av, e = some ev ∧ v = some av ∧ av.toNat ≠ ev.toNat) ∧
    (∀ pos e v, t.vres = .mismatch .excessOutput pos e v → pos = t.len ∧ e = none ∧ ∃ av, v = some av) ∧
    (∀ pos e v, t.vres = .mismatch .prematureHalt pos e v →
      pos < t.len ∧ e = t.cell pos ∧ (∃ ev, e = some ev) ∧ v = none) ∧
    (∀ k p x pos, t.vres = .fault k p x pos →
      k = t.fcause ∧ k ≠ .noFault ∧ p = t.fpc ∧ x = t.fval ∧ pos = s.vpos)

/-- spec/47_verifier.md R208: a verify that answers Verified has halted after exactly LEN outputs, the k-th equal to
`PROG[k]` for every k. -/
def Obligations.VerifiedMeansReproduced : Prop :=
  ∀ s t : State, s.VerifyMatched → s.inbox = [] → s.activity = .verify → step s = .next t →
    t.vres = .verified →
    t.answer = .verify .verified ∧ t.activity = .idle ∧ t.out.length = t.len ∧ t.len ≤ t.pc ∧
    t.fcause = .noFault ∧
    ∀ k, k < t.len → ∃ v e, t.out[k]? = some v ∧ t.cell k = some e ∧ v.toNat = e.toNat

/-- spec/47_verifier.md R208: `verify` answers Verified exactly where the run of its arguments halts with an output list
equal to the program. -/
def Obligations.VerifyAgreesWithRun : Prop :=
  ∀ (s : State) (program : List Byte) (a b c : Nat),
    s.activity = .idle → s.inbox = [.issue (.verify program a b c)] →
    launchRefusal s.build program.length a b c = none →
    ((∃ n t, machineRun (n + 1) s = .next t ∧ t.answer = .verify .verified) ↔
      ∃ n u, coreSteps n (s.launch program a b c) = .next u ∧ u.status = .halt ∧
        u.out.map BitVec.toNat = program.map BitVec.toNat)

/-- spec/45_run_commands.md R151, R152: `run` ends with Ok(OUT) exactly where its core steps come to a halt, and with the
fault and the outputs so far where they come to a fault. -/
def Obligations.RunCommandIsItsCoreSteps : Prop :=
  ∀ (s : State) (program : List Byte) (a b c : Nat),
    s.activity = .idle → s.inbox = [.issue (.run program a b c)] →
    launchRefusal s.build program.length a b c = none →
    (∀ n u, coreSteps n (s.launch program a b c) = .next u → u.status = .halt →
      ∃ k t, machineRun k s = .next t ∧ t.activity = .idle ∧ t.answer = .runOk u.out) ∧
    (∀ n u, coreSteps n (s.launch program a b c) = .next u → u.status = .fault →
      ∃ k t, machineRun k s = .next t ∧ t.activity = .idle ∧
        t.answer = .runFault u.fcause u.fpc u.fval u.out) ∧
    (∀ k t outs, machineRun (k + 1) s = .next t → t.answer = .runOk outs →
      ∃ n u, coreSteps n (s.launch program a b c) = .next u ∧ u.status = .halt ∧ u.out = outs)

/-- spec/45_run_commands.md R153: `run_until_first_output` ends with the core that the first step returning Output left, so
no instruction is executed after it; with None where its core steps come to a halt, and with the fault where they come to
one, without an output; and it answers each of these only then. -/
def Obligations.FirstOutputCommandStopsAtTheFirst : Prop :=
  ∀ (s : State) (program : List Byte) (a b c : Nat),
    s.activity = .idle → s.inbox = [.issue (.runUntilFirstOutput program a b c)] →
    launchRefusal s.build program.length a b c = none →
    (∀ n u w v, coreSteps n (s.launch program a b c) = .next u → u.out = [] →
      coreStep u = .next w → w.sres = some (.output v) →
      ∃ k t, machineRun k s = .next t ∧ t.activity = .idle ∧ t.answer = .firstOk (some v) ∧
        t.out = [v] ∧ SameCore t w) ∧
    (∀ n u, coreSteps n (s.launch program a b c) = .next u → u.out = [] → u.status = .halt →
      ∃ k t, machineRun k s = .next t ∧ t.activity = .idle ∧ t.answer = .firstOk none) ∧
    (∀ n u, coreSteps n (s.launch program a b c) = .next u → u.out = [] → u.status = .fault →
      ∃ k t, machineRun k s = .next t ∧ t.activity = .idle ∧
        t.answer = .firstFault u.fcause u.fpc u.fval) ∧
    (∀ k t v, machineRun (k + 1) s = .next t → t.answer = .firstOk (some v) →
      ∃ n u w, coreSteps n (s.launch program a b c) = .next u ∧ u.out = [] ∧
        coreStep u = .next w ∧ w.sres = some (.output v) ∧ SameCore t w) ∧
    (∀ k t, machineRun (k + 1) s = .next t → t.answer = .firstOk none →
      ∃ n u, coreSteps n (s.launch program a b c) = .next u ∧ u.out = [] ∧ u.status = .halt) ∧
    (∀ k t cause fpc fval, machineRun (k + 1) s = .next t → t.answer = .firstFault cause fpc fval →
      ∃ n u, coreSteps n (s.launch program a b c) = .next u ∧ u.out = [] ∧ u.status = .fault ∧
        u.fcause = cause ∧ u.fpc = fpc ∧ u.fval = fval)

/-- spec/45_run_commands.md R154: the first output is the first element of the outputs of a longer run. -/
def Obligations.FirstOutputIsTheHeadOfTheTrace : Prop :=
  ∀ (n : Nat) (s t : State) (v : Oct) (rest : List Oct),
    s.out = [] → coreSteps n s = .next t → t.out = v :: rest →
    ∃ m u, m ≤ n ∧ coreSteps m s = .next u ∧ u.out = [v]
end

