-- ==== Sys2Proof/Laws/Memory.lean ====
section
/-! SUPPORT. The laws of the program memory: reading what was written or loaded, and the canonical form kept by every
operation. -/

namespace Sys2Proof.Machine

@[simp] theorem Memory.read_nil (i : Nat) : Memory.read [] i = none := rfl

theorem Memory.read_write_same (m : List Host.Cell) (i : Nat) (v : Byte) :
    Memory.read (Memory.write m i v) i = some v := by
  induction m with
  | nil => simp [Memory.write, Memory.read]
  | cons cell rest ih =>
    unfold Memory.write
    split
    · simp [Memory.read]
    · split
      · simp [Memory.read]
      · simp only [Memory.read]
        rw [if_neg (by omega), ih]

theorem Memory.read_write_other (m : List Host.Cell) (i j : Nat) (v : Byte) (h : j ≠ i) :
    Memory.read (Memory.write m i v) j = Memory.read m j := by
  induction m with
  | nil => simp [Memory.write, Memory.read, Ne.symm h]
  | cons cell rest ih =>
    unfold Memory.write
    split
    · simp [Memory.read, Ne.symm h]
    · split
      · rename_i hEq
        simp only [Memory.read]
        rw [if_neg (Ne.symm h), if_neg (by omega)]
      · simp only [Memory.read, ih]

theorem Memory.risingFrom_mono (m : List Host.Cell) {i j : Nat} (h : i ≤ j)
    (hm : Memory.risingFrom j m = true) : Memory.risingFrom i m = true := by
  cases m with
  | nil => rfl
  | cons cell rest =>
    simp only [Memory.risingFrom, Bool.and_eq_true, decide_eq_true_eq] at hm ⊢
    exact ⟨by omega, hm.2⟩

theorem Memory.risingFrom_write (m : List Host.Cell) (k i : Nat) (v : Byte) (hk : k ≤ i)
    (hm : Memory.risingFrom k m = true) : Memory.risingFrom k (Memory.write m i v) = true := by
  induction m generalizing k with
  | nil => simp [Memory.write, Memory.risingFrom, hk]
  | cons cell rest ih =>
    simp only [Memory.risingFrom, Bool.and_eq_true, decide_eq_true_eq] at hm
    unfold Memory.write
    split
    · simp only [Memory.risingFrom, Bool.and_eq_true, decide_eq_true_eq]
      exact ⟨hk, by omega, hm.2⟩
    · split
      · rename_i hEq
        simp only [Memory.risingFrom, Bool.and_eq_true, decide_eq_true_eq]
        exact ⟨hk, hEq ▸ hm.2⟩
      · simp only [Memory.risingFrom, Bool.and_eq_true, decide_eq_true_eq]
        exact ⟨hm.1, ih _ (by omega) hm.2⟩

/-- A write keeps the canonical form. -/
theorem Memory.wf_write (m : List Host.Cell) (i : Nat) (v : Byte) (hm : Memory.wf m = true) :
    Memory.wf (Memory.write m i v) = true :=
  Memory.risingFrom_write m 0 i v (Nat.zero_le i) hm

theorem Memory.risingFrom_loadAt (p : List Byte) (i : Nat) :
    Memory.risingFrom i (Memory.loadAt i p) = true := by
  induction p generalizing i with
  | nil => rfl
  | cons v rest ih => simp [Memory.loadAt, Memory.risingFrom, ih]

/-- A launch makes a memory of canonical form. -/
theorem Memory.wf_load (p : List Byte) : Memory.wf (Memory.load p) = true :=
  Memory.risingFrom_loadAt p 0

theorem Memory.read_loadAt (p : List Byte) (i j : Nat) :
    Memory.read (Memory.loadAt i p) (i + j) = p[j]? := by
  induction p generalizing i j with
  | nil => simp [Memory.loadAt]
  | cons v rest ih =>
    cases j with
    | zero => simp [Memory.loadAt, Memory.read]
    | succ j =>
      have h := ih (i + 1) j
      simp only [Memory.loadAt, Memory.read, List.getElem?_cons_succ]
      rw [if_neg (by omega), ← h]
      congr 1
      omega

/-- After a launch, `PROG[i]` is `program[i]`, and nothing past the end (spec/10_state.md R44). -/
theorem Memory.read_load (p : List Byte) (i : Nat) : Memory.read (Memory.load p) i = p[i]? := by
  simpa [Memory.load] using Memory.read_loadAt p 0 i

theorem Memory.indices_loadAt (p : List Byte) (i : Nat) :
    (Memory.loadAt i p).map Prod.fst = List.range' i p.length := by
  induction p generalizing i with
  | nil => rfl
  | cons v rest ih => simp [Memory.loadAt, ih, List.range'_succ]

/-- A launch lists exactly the indices 0..LEN-1. -/
theorem Memory.indices_load (p : List Byte) :
    (Memory.load p).map Prod.fst = List.range p.length := by
  simpa [Memory.load, List.range_eq_range'] using Memory.indices_loadAt p 0

/-- A memory that lists the indices from `i` on has the canonical form. -/
theorem Memory.risingFrom_of_indices (m : List Host.Cell) (i n : Nat)
    (h : m.map Prod.fst = List.range' i n) : Memory.risingFrom i m = true := by
  induction m generalizing i n with
  | nil => rfl
  | cons cell rest ih =>
    cases n with
    | zero => simp at h
    | succ n =>
      simp only [List.map_cons, List.range'_succ, List.cons.injEq] at h
      simp only [Memory.risingFrom, Bool.and_eq_true, decide_eq_true_eq]
      exact ⟨by omega, h.1 ▸ ih (i + 1) n h.2⟩

theorem Memory.read_isSome_of_mem (m : List Host.Cell) (i : Nat) (h : i ∈ m.map Prod.fst) :
    ∃ v, Memory.read m i = some v := by
  induction m with
  | nil => simp at h
  | cons cell rest ih =>
    simp only [Memory.read]
    split
    · exact ⟨cell.2, rfl⟩
    · rename_i hne
      simp only [List.map_cons, List.mem_cons] at h
      exact ih (h.resolve_left fun e => hne e.symm)

/-- Placing an instruction keeps the canonical form of the memory. -/
theorem State.placeInstr_wf (s : State) (c0 c1 : Byte) (h : Memory.wf s.prog = true) :
    Memory.wf (s.placeInstr c0 c1).prog = true :=
  Memory.wf_write _ _ _ (Memory.wf_write _ _ _ h)

end Sys2Proof.Machine
end

