-- ==== Sys2Proof/Laws/State.lean ====
section
/-! SUPPORT. Each named update of the state, read back field by field: true by unfolding one record update, so that no
later proof unfolds one. -/

namespace Sys2Proof.Machine

section FieldLemmas
variable (s : State)

-- State.setA
@[simp] theorem State.setA_a (v : Nat) : (s.setA v).a = v := rfl
@[simp] theorem State.setA_b (v : Nat) : (s.setA v).b = s.b := rfl
@[simp] theorem State.setA_c (v : Nat) : (s.setA v).c = s.c := rfl
@[simp] theorem State.setA_pc (v : Nat) : (s.setA v).pc = s.pc := rfl
@[simp] theorem State.setA_fcause (v : Nat) : (s.setA v).fcause = s.fcause := rfl
@[simp] theorem State.setA_fpc (v : Nat) : (s.setA v).fpc = s.fpc := rfl
@[simp] theorem State.setA_fval (v : Nat) : (s.setA v).fval = s.fval := rfl
@[simp] theorem State.setA_launched (v : Nat) : (s.setA v).launched = s.launched := rfl
@[simp] theorem State.setA_prog (v : Nat) : (s.setA v).prog = s.prog := rfl
@[simp] theorem State.setA_len (v : Nat) : (s.setA v).len = s.len := rfl
@[simp] theorem State.setA_out (v : Nat) : (s.setA v).out = s.out := rfl
@[simp] theorem State.setA_cand (v : Nat) : (s.setA v).cand = s.cand := rfl
@[simp] theorem State.setA_round (v : Nat) : (s.setA v).round = s.round := rfl
@[simp] theorem State.setA_shape (v : Nat) : (s.setA v).shape = s.shape := rfl
@[simp] theorem State.setA_seed (v : Nat) : (s.setA v).seed = s.seed := rfl
@[simp] theorem State.setA_vpos (v : Nat) : (s.setA v).vpos = s.vpos := rfl
@[simp] theorem State.setA_vres (v : Nat) : (s.setA v).vres = s.vres := rfl
@[simp] theorem State.setA_sres (v : Nat) : (s.setA v).sres = s.sres := rfl
@[simp] theorem State.setA_answer (v : Nat) : (s.setA v).answer = s.answer := rfl
@[simp] theorem State.setA_activity (v : Nat) : (s.setA v).activity = s.activity := rfl
@[simp] theorem State.setA_inbox (v : Nat) : (s.setA v).inbox = s.inbox := rfl
@[simp] theorem State.setA_build (v : Nat) : (s.setA v).build = s.build := rfl
-- State.setB
@[simp] theorem State.setB_a (v : Nat) : (s.setB v).a = s.a := rfl
@[simp] theorem State.setB_b (v : Nat) : (s.setB v).b = v := rfl
@[simp] theorem State.setB_c (v : Nat) : (s.setB v).c = s.c := rfl
@[simp] theorem State.setB_pc (v : Nat) : (s.setB v).pc = s.pc := rfl
@[simp] theorem State.setB_fcause (v : Nat) : (s.setB v).fcause = s.fcause := rfl
@[simp] theorem State.setB_fpc (v : Nat) : (s.setB v).fpc = s.fpc := rfl
@[simp] theorem State.setB_fval (v : Nat) : (s.setB v).fval = s.fval := rfl
@[simp] theorem State.setB_launched (v : Nat) : (s.setB v).launched = s.launched := rfl
@[simp] theorem State.setB_prog (v : Nat) : (s.setB v).prog = s.prog := rfl
@[simp] theorem State.setB_len (v : Nat) : (s.setB v).len = s.len := rfl
@[simp] theorem State.setB_out (v : Nat) : (s.setB v).out = s.out := rfl
@[simp] theorem State.setB_cand (v : Nat) : (s.setB v).cand = s.cand := rfl
@[simp] theorem State.setB_round (v : Nat) : (s.setB v).round = s.round := rfl
@[simp] theorem State.setB_shape (v : Nat) : (s.setB v).shape = s.shape := rfl
@[simp] theorem State.setB_seed (v : Nat) : (s.setB v).seed = s.seed := rfl
@[simp] theorem State.setB_vpos (v : Nat) : (s.setB v).vpos = s.vpos := rfl
@[simp] theorem State.setB_vres (v : Nat) : (s.setB v).vres = s.vres := rfl
@[simp] theorem State.setB_sres (v : Nat) : (s.setB v).sres = s.sres := rfl
@[simp] theorem State.setB_answer (v : Nat) : (s.setB v).answer = s.answer := rfl
@[simp] theorem State.setB_activity (v : Nat) : (s.setB v).activity = s.activity := rfl
@[simp] theorem State.setB_inbox (v : Nat) : (s.setB v).inbox = s.inbox := rfl
@[simp] theorem State.setB_build (v : Nat) : (s.setB v).build = s.build := rfl
-- State.setC
@[simp] theorem State.setC_a (v : Nat) : (s.setC v).a = s.a := rfl
@[simp] theorem State.setC_b (v : Nat) : (s.setC v).b = s.b := rfl
@[simp] theorem State.setC_c (v : Nat) : (s.setC v).c = v := rfl
@[simp] theorem State.setC_pc (v : Nat) : (s.setC v).pc = s.pc := rfl
@[simp] theorem State.setC_fcause (v : Nat) : (s.setC v).fcause = s.fcause := rfl
@[simp] theorem State.setC_fpc (v : Nat) : (s.setC v).fpc = s.fpc := rfl
@[simp] theorem State.setC_fval (v : Nat) : (s.setC v).fval = s.fval := rfl
@[simp] theorem State.setC_launched (v : Nat) : (s.setC v).launched = s.launched := rfl
@[simp] theorem State.setC_prog (v : Nat) : (s.setC v).prog = s.prog := rfl
@[simp] theorem State.setC_len (v : Nat) : (s.setC v).len = s.len := rfl
@[simp] theorem State.setC_out (v : Nat) : (s.setC v).out = s.out := rfl
@[simp] theorem State.setC_cand (v : Nat) : (s.setC v).cand = s.cand := rfl
@[simp] theorem State.setC_round (v : Nat) : (s.setC v).round = s.round := rfl
@[simp] theorem State.setC_shape (v : Nat) : (s.setC v).shape = s.shape := rfl
@[simp] theorem State.setC_seed (v : Nat) : (s.setC v).seed = s.seed := rfl
@[simp] theorem State.setC_vpos (v : Nat) : (s.setC v).vpos = s.vpos := rfl
@[simp] theorem State.setC_vres (v : Nat) : (s.setC v).vres = s.vres := rfl
@[simp] theorem State.setC_sres (v : Nat) : (s.setC v).sres = s.sres := rfl
@[simp] theorem State.setC_answer (v : Nat) : (s.setC v).answer = s.answer := rfl
@[simp] theorem State.setC_activity (v : Nat) : (s.setC v).activity = s.activity := rfl
@[simp] theorem State.setC_inbox (v : Nat) : (s.setC v).inbox = s.inbox := rfl
@[simp] theorem State.setC_build (v : Nat) : (s.setC v).build = s.build := rfl
-- State.setPc
@[simp] theorem State.setPc_a (p : Nat) : (s.setPc p).a = s.a := rfl
@[simp] theorem State.setPc_b (p : Nat) : (s.setPc p).b = s.b := rfl
@[simp] theorem State.setPc_c (p : Nat) : (s.setPc p).c = s.c := rfl
@[simp] theorem State.setPc_pc (p : Nat) : (s.setPc p).pc = p := rfl
@[simp] theorem State.setPc_fcause (p : Nat) : (s.setPc p).fcause = s.fcause := rfl
@[simp] theorem State.setPc_fpc (p : Nat) : (s.setPc p).fpc = s.fpc := rfl
@[simp] theorem State.setPc_fval (p : Nat) : (s.setPc p).fval = s.fval := rfl
@[simp] theorem State.setPc_launched (p : Nat) : (s.setPc p).launched = s.launched := rfl
@[simp] theorem State.setPc_prog (p : Nat) : (s.setPc p).prog = s.prog := rfl
@[simp] theorem State.setPc_len (p : Nat) : (s.setPc p).len = s.len := rfl
@[simp] theorem State.setPc_out (p : Nat) : (s.setPc p).out = s.out := rfl
@[simp] theorem State.setPc_cand (p : Nat) : (s.setPc p).cand = s.cand := rfl
@[simp] theorem State.setPc_round (p : Nat) : (s.setPc p).round = s.round := rfl
@[simp] theorem State.setPc_shape (p : Nat) : (s.setPc p).shape = s.shape := rfl
@[simp] theorem State.setPc_seed (p : Nat) : (s.setPc p).seed = s.seed := rfl
@[simp] theorem State.setPc_vpos (p : Nat) : (s.setPc p).vpos = s.vpos := rfl
@[simp] theorem State.setPc_vres (p : Nat) : (s.setPc p).vres = s.vres := rfl
@[simp] theorem State.setPc_sres (p : Nat) : (s.setPc p).sres = s.sres := rfl
@[simp] theorem State.setPc_answer (p : Nat) : (s.setPc p).answer = s.answer := rfl
@[simp] theorem State.setPc_activity (p : Nat) : (s.setPc p).activity = s.activity := rfl
@[simp] theorem State.setPc_inbox (p : Nat) : (s.setPc p).inbox = s.inbox := rfl
@[simp] theorem State.setPc_build (p : Nat) : (s.setPc p).build = s.build := rfl
-- State.advancePc
@[simp] theorem State.advancePc_a : s.advancePc.a = s.a := rfl
@[simp] theorem State.advancePc_b : s.advancePc.b = s.b := rfl
@[simp] theorem State.advancePc_c : s.advancePc.c = s.c := rfl
@[simp] theorem State.advancePc_pc : s.advancePc.pc = s.pc + 2 := rfl
@[simp] theorem State.advancePc_fcause : s.advancePc.fcause = s.fcause := rfl
@[simp] theorem State.advancePc_fpc : s.advancePc.fpc = s.fpc := rfl
@[simp] theorem State.advancePc_fval : s.advancePc.fval = s.fval := rfl
@[simp] theorem State.advancePc_launched : s.advancePc.launched = s.launched := rfl
@[simp] theorem State.advancePc_prog : s.advancePc.prog = s.prog := rfl
@[simp] theorem State.advancePc_len : s.advancePc.len = s.len := rfl
@[simp] theorem State.advancePc_out : s.advancePc.out = s.out := rfl
@[simp] theorem State.advancePc_cand : s.advancePc.cand = s.cand := rfl
@[simp] theorem State.advancePc_round : s.advancePc.round = s.round := rfl
@[simp] theorem State.advancePc_shape : s.advancePc.shape = s.shape := rfl
@[simp] theorem State.advancePc_seed : s.advancePc.seed = s.seed := rfl
@[simp] theorem State.advancePc_vpos : s.advancePc.vpos = s.vpos := rfl
@[simp] theorem State.advancePc_vres : s.advancePc.vres = s.vres := rfl
@[simp] theorem State.advancePc_sres : s.advancePc.sres = s.sres := rfl
@[simp] theorem State.advancePc_answer : s.advancePc.answer = s.answer := rfl
@[simp] theorem State.advancePc_activity : s.advancePc.activity = s.activity := rfl
@[simp] theorem State.advancePc_inbox : s.advancePc.inbox = s.inbox := rfl
@[simp] theorem State.advancePc_build : s.advancePc.build = s.build := rfl
-- State.emit
@[simp] theorem State.emit_a (v : Oct) : (s.emit v).a = s.a := rfl
@[simp] theorem State.emit_b (v : Oct) : (s.emit v).b = s.b := rfl
@[simp] theorem State.emit_c (v : Oct) : (s.emit v).c = s.c := rfl
@[simp] theorem State.emit_pc (v : Oct) : (s.emit v).pc = s.pc := rfl
@[simp] theorem State.emit_fcause (v : Oct) : (s.emit v).fcause = s.fcause := rfl
@[simp] theorem State.emit_fpc (v : Oct) : (s.emit v).fpc = s.fpc := rfl
@[simp] theorem State.emit_fval (v : Oct) : (s.emit v).fval = s.fval := rfl
@[simp] theorem State.emit_launched (v : Oct) : (s.emit v).launched = s.launched := rfl
@[simp] theorem State.emit_prog (v : Oct) : (s.emit v).prog = s.prog := rfl
@[simp] theorem State.emit_len (v : Oct) : (s.emit v).len = s.len := rfl
@[simp] theorem State.emit_out (v : Oct) : (s.emit v).out = s.out ++ [v] := rfl
@[simp] theorem State.emit_cand (v : Oct) : (s.emit v).cand = s.cand := rfl
@[simp] theorem State.emit_round (v : Oct) : (s.emit v).round = s.round := rfl
@[simp] theorem State.emit_shape (v : Oct) : (s.emit v).shape = s.shape := rfl
@[simp] theorem State.emit_seed (v : Oct) : (s.emit v).seed = s.seed := rfl
@[simp] theorem State.emit_vpos (v : Oct) : (s.emit v).vpos = s.vpos := rfl
@[simp] theorem State.emit_vres (v : Oct) : (s.emit v).vres = s.vres := rfl
@[simp] theorem State.emit_sres (v : Oct) : (s.emit v).sres = s.sres := rfl
@[simp] theorem State.emit_answer (v : Oct) : (s.emit v).answer = s.answer := rfl
@[simp] theorem State.emit_activity (v : Oct) : (s.emit v).activity = s.activity := rfl
@[simp] theorem State.emit_inbox (v : Oct) : (s.emit v).inbox = s.inbox := rfl
@[simp] theorem State.emit_build (v : Oct) : (s.emit v).build = s.build := rfl
-- State.returns
@[simp] theorem State.returns_a (r : StepResult) : (s.returns r).a = s.a := rfl
@[simp] theorem State.returns_b (r : StepResult) : (s.returns r).b = s.b := rfl
@[simp] theorem State.returns_c (r : StepResult) : (s.returns r).c = s.c := rfl
@[simp] theorem State.returns_pc (r : StepResult) : (s.returns r).pc = s.pc := rfl
@[simp] theorem State.returns_fcause (r : StepResult) : (s.returns r).fcause = s.fcause := rfl
@[simp] theorem State.returns_fpc (r : StepResult) : (s.returns r).fpc = s.fpc := rfl
@[simp] theorem State.returns_fval (r : StepResult) : (s.returns r).fval = s.fval := rfl
@[simp] theorem State.returns_launched (r : StepResult) : (s.returns r).launched = s.launched := rfl
@[simp] theorem State.returns_prog (r : StepResult) : (s.returns r).prog = s.prog := rfl
@[simp] theorem State.returns_len (r : StepResult) : (s.returns r).len = s.len := rfl
@[simp] theorem State.returns_out (r : StepResult) : (s.returns r).out = s.out := rfl
@[simp] theorem State.returns_cand (r : StepResult) : (s.returns r).cand = s.cand := rfl
@[simp] theorem State.returns_round (r : StepResult) : (s.returns r).round = s.round := rfl
@[simp] theorem State.returns_shape (r : StepResult) : (s.returns r).shape = s.shape := rfl
@[simp] theorem State.returns_seed (r : StepResult) : (s.returns r).seed = s.seed := rfl
@[simp] theorem State.returns_vpos (r : StepResult) : (s.returns r).vpos = s.vpos := rfl
@[simp] theorem State.returns_vres (r : StepResult) : (s.returns r).vres = s.vres := rfl
@[simp] theorem State.returns_sres (r : StepResult) : (s.returns r).sres = some r := rfl
@[simp] theorem State.returns_answer (r : StepResult) : (s.returns r).answer = s.answer := rfl
@[simp] theorem State.returns_activity (r : StepResult) : (s.returns r).activity = s.activity := rfl
@[simp] theorem State.returns_inbox (r : StepResult) : (s.returns r).inbox = s.inbox := rfl
@[simp] theorem State.returns_build (r : StepResult) : (s.returns r).build = s.build := rfl
-- State.raise
@[simp] theorem State.raise_a (k : FCause) (v : Byte) : (s.raise k v).a = s.a := rfl
@[simp] theorem State.raise_b (k : FCause) (v : Byte) : (s.raise k v).b = s.b := rfl
@[simp] theorem State.raise_c (k : FCause) (v : Byte) : (s.raise k v).c = s.c := rfl
@[simp] theorem State.raise_pc (k : FCause) (v : Byte) : (s.raise k v).pc = s.pc := rfl
@[simp] theorem State.raise_fcause (k : FCause) (v : Byte) : (s.raise k v).fcause = k := rfl
@[simp] theorem State.raise_fpc (k : FCause) (v : Byte) : (s.raise k v).fpc = s.pc := rfl
@[simp] theorem State.raise_fval (k : FCause) (v : Byte) : (s.raise k v).fval = v := rfl
@[simp] theorem State.raise_launched (k : FCause) (v : Byte) : (s.raise k v).launched = s.launched := rfl
@[simp] theorem State.raise_prog (k : FCause) (v : Byte) : (s.raise k v).prog = s.prog := rfl
@[simp] theorem State.raise_len (k : FCause) (v : Byte) : (s.raise k v).len = s.len := rfl
@[simp] theorem State.raise_out (k : FCause) (v : Byte) : (s.raise k v).out = s.out := rfl
@[simp] theorem State.raise_cand (k : FCause) (v : Byte) : (s.raise k v).cand = s.cand := rfl
@[simp] theorem State.raise_round (k : FCause) (v : Byte) : (s.raise k v).round = s.round := rfl
@[simp] theorem State.raise_shape (k : FCause) (v : Byte) : (s.raise k v).shape = s.shape := rfl
@[simp] theorem State.raise_seed (k : FCause) (v : Byte) : (s.raise k v).seed = s.seed := rfl
@[simp] theorem State.raise_vpos (k : FCause) (v : Byte) : (s.raise k v).vpos = s.vpos := rfl
@[simp] theorem State.raise_vres (k : FCause) (v : Byte) : (s.raise k v).vres = s.vres := rfl
@[simp] theorem State.raise_sres (k : FCause) (v : Byte) : (s.raise k v).sres = some (.fault k s.pc v) := rfl
@[simp] theorem State.raise_answer (k : FCause) (v : Byte) : (s.raise k v).answer = s.answer := rfl
@[simp] theorem State.raise_activity (k : FCause) (v : Byte) : (s.raise k v).activity = s.activity := rfl
@[simp] theorem State.raise_inbox (k : FCause) (v : Byte) : (s.raise k v).inbox = s.inbox := rfl
@[simp] theorem State.raise_build (k : FCause) (v : Byte) : (s.raise k v).build = s.build := rfl
-- State.finish
@[simp] theorem State.finish_a (r : Answer) : (s.finish r).a = s.a := rfl
@[simp] theorem State.finish_b (r : Answer) : (s.finish r).b = s.b := rfl
@[simp] theorem State.finish_c (r : Answer) : (s.finish r).c = s.c := rfl
@[simp] theorem State.finish_pc (r : Answer) : (s.finish r).pc = s.pc := rfl
@[simp] theorem State.finish_fcause (r : Answer) : (s.finish r).fcause = s.fcause := rfl
@[simp] theorem State.finish_fpc (r : Answer) : (s.finish r).fpc = s.fpc := rfl
@[simp] theorem State.finish_fval (r : Answer) : (s.finish r).fval = s.fval := rfl
@[simp] theorem State.finish_launched (r : Answer) : (s.finish r).launched = s.launched := rfl
@[simp] theorem State.finish_prog (r : Answer) : (s.finish r).prog = s.prog := rfl
@[simp] theorem State.finish_len (r : Answer) : (s.finish r).len = s.len := rfl
@[simp] theorem State.finish_out (r : Answer) : (s.finish r).out = s.out := rfl
@[simp] theorem State.finish_cand (r : Answer) : (s.finish r).cand = s.cand := rfl
@[simp] theorem State.finish_round (r : Answer) : (s.finish r).round = s.round := rfl
@[simp] theorem State.finish_shape (r : Answer) : (s.finish r).shape = s.shape := rfl
@[simp] theorem State.finish_seed (r : Answer) : (s.finish r).seed = s.seed := rfl
@[simp] theorem State.finish_vpos (r : Answer) : (s.finish r).vpos = s.vpos := rfl
@[simp] theorem State.finish_vres (r : Answer) : (s.finish r).vres = s.vres := rfl
@[simp] theorem State.finish_sres (r : Answer) : (s.finish r).sres = s.sres := rfl
@[simp] theorem State.finish_answer (r : Answer) : (s.finish r).answer = r := rfl
@[simp] theorem State.finish_activity (r : Answer) : (s.finish r).activity = .idle := rfl
@[simp] theorem State.finish_inbox (r : Answer) : (s.finish r).inbox = s.inbox := rfl
@[simp] theorem State.finish_build (r : Answer) : (s.finish r).build = s.build := rfl
-- State.goTo
@[simp] theorem State.goTo_a (p : Activity) : (s.goTo p).a = s.a := rfl
@[simp] theorem State.goTo_b (p : Activity) : (s.goTo p).b = s.b := rfl
@[simp] theorem State.goTo_c (p : Activity) : (s.goTo p).c = s.c := rfl
@[simp] theorem State.goTo_pc (p : Activity) : (s.goTo p).pc = s.pc := rfl
@[simp] theorem State.goTo_fcause (p : Activity) : (s.goTo p).fcause = s.fcause := rfl
@[simp] theorem State.goTo_fpc (p : Activity) : (s.goTo p).fpc = s.fpc := rfl
@[simp] theorem State.goTo_fval (p : Activity) : (s.goTo p).fval = s.fval := rfl
@[simp] theorem State.goTo_launched (p : Activity) : (s.goTo p).launched = s.launched := rfl
@[simp] theorem State.goTo_prog (p : Activity) : (s.goTo p).prog = s.prog := rfl
@[simp] theorem State.goTo_len (p : Activity) : (s.goTo p).len = s.len := rfl
@[simp] theorem State.goTo_out (p : Activity) : (s.goTo p).out = s.out := rfl
@[simp] theorem State.goTo_cand (p : Activity) : (s.goTo p).cand = s.cand := rfl
@[simp] theorem State.goTo_round (p : Activity) : (s.goTo p).round = s.round := rfl
@[simp] theorem State.goTo_shape (p : Activity) : (s.goTo p).shape = s.shape := rfl
@[simp] theorem State.goTo_seed (p : Activity) : (s.goTo p).seed = s.seed := rfl
@[simp] theorem State.goTo_vpos (p : Activity) : (s.goTo p).vpos = s.vpos := rfl
@[simp] theorem State.goTo_vres (p : Activity) : (s.goTo p).vres = s.vres := rfl
@[simp] theorem State.goTo_sres (p : Activity) : (s.goTo p).sres = s.sres := rfl
@[simp] theorem State.goTo_answer (p : Activity) : (s.goTo p).answer = s.answer := rfl
@[simp] theorem State.goTo_activity (p : Activity) : (s.goTo p).activity = p := rfl
@[simp] theorem State.goTo_inbox (p : Activity) : (s.goTo p).inbox = s.inbox := rfl
@[simp] theorem State.goTo_build (p : Activity) : (s.goTo p).build = s.build := rfl
-- State.refuse
@[simp] theorem State.refuse_a (w : RefuseReason) : (s.refuse w).a = s.a := rfl
@[simp] theorem State.refuse_b (w : RefuseReason) : (s.refuse w).b = s.b := rfl
@[simp] theorem State.refuse_c (w : RefuseReason) : (s.refuse w).c = s.c := rfl
@[simp] theorem State.refuse_pc (w : RefuseReason) : (s.refuse w).pc = s.pc := rfl
@[simp] theorem State.refuse_fcause (w : RefuseReason) : (s.refuse w).fcause = s.fcause := rfl
@[simp] theorem State.refuse_fpc (w : RefuseReason) : (s.refuse w).fpc = s.fpc := rfl
@[simp] theorem State.refuse_fval (w : RefuseReason) : (s.refuse w).fval = s.fval := rfl
@[simp] theorem State.refuse_launched (w : RefuseReason) : (s.refuse w).launched = s.launched := rfl
@[simp] theorem State.refuse_prog (w : RefuseReason) : (s.refuse w).prog = s.prog := rfl
@[simp] theorem State.refuse_len (w : RefuseReason) : (s.refuse w).len = s.len := rfl
@[simp] theorem State.refuse_out (w : RefuseReason) : (s.refuse w).out = s.out := rfl
@[simp] theorem State.refuse_cand (w : RefuseReason) : (s.refuse w).cand = s.cand := rfl
@[simp] theorem State.refuse_round (w : RefuseReason) : (s.refuse w).round = s.round := rfl
@[simp] theorem State.refuse_shape (w : RefuseReason) : (s.refuse w).shape = s.shape := rfl
@[simp] theorem State.refuse_seed (w : RefuseReason) : (s.refuse w).seed = s.seed := rfl
@[simp] theorem State.refuse_vpos (w : RefuseReason) : (s.refuse w).vpos = s.vpos := rfl
@[simp] theorem State.refuse_vres (w : RefuseReason) : (s.refuse w).vres = s.vres := rfl
@[simp] theorem State.refuse_sres (w : RefuseReason) : (s.refuse w).sres = s.sres := rfl
@[simp] theorem State.refuse_answer (w : RefuseReason) : (s.refuse w).answer = .refused w := rfl
@[simp] theorem State.refuse_activity (w : RefuseReason) : (s.refuse w).activity = s.activity := rfl
@[simp] theorem State.refuse_inbox (w : RefuseReason) : (s.refuse w).inbox = s.inbox := rfl
@[simp] theorem State.refuse_build (w : RefuseReason) : (s.refuse w).build = s.build := rfl
-- State.loadProgram
@[simp] theorem State.loadProgram_a (p : List Byte) : (s.loadProgram p).a = s.a := rfl
@[simp] theorem State.loadProgram_b (p : List Byte) : (s.loadProgram p).b = s.b := rfl
@[simp] theorem State.loadProgram_c (p : List Byte) : (s.loadProgram p).c = s.c := rfl
@[simp] theorem State.loadProgram_pc (p : List Byte) : (s.loadProgram p).pc = s.pc := rfl
@[simp] theorem State.loadProgram_fcause (p : List Byte) : (s.loadProgram p).fcause = s.fcause := rfl
@[simp] theorem State.loadProgram_fpc (p : List Byte) : (s.loadProgram p).fpc = s.fpc := rfl
@[simp] theorem State.loadProgram_fval (p : List Byte) : (s.loadProgram p).fval = s.fval := rfl
@[simp] theorem State.loadProgram_launched (p : List Byte) : (s.loadProgram p).launched = s.launched := rfl
@[simp] theorem State.loadProgram_prog (p : List Byte) : (s.loadProgram p).prog = Memory.load p := rfl
@[simp] theorem State.loadProgram_len (p : List Byte) : (s.loadProgram p).len = p.length := rfl
@[simp] theorem State.loadProgram_out (p : List Byte) : (s.loadProgram p).out = s.out := rfl
@[simp] theorem State.loadProgram_cand (p : List Byte) : (s.loadProgram p).cand = s.cand := rfl
@[simp] theorem State.loadProgram_round (p : List Byte) : (s.loadProgram p).round = s.round := rfl
@[simp] theorem State.loadProgram_shape (p : List Byte) : (s.loadProgram p).shape = s.shape := rfl
@[simp] theorem State.loadProgram_seed (p : List Byte) : (s.loadProgram p).seed = s.seed := rfl
@[simp] theorem State.loadProgram_vpos (p : List Byte) : (s.loadProgram p).vpos = s.vpos := rfl
@[simp] theorem State.loadProgram_vres (p : List Byte) : (s.loadProgram p).vres = s.vres := rfl
@[simp] theorem State.loadProgram_sres (p : List Byte) : (s.loadProgram p).sres = s.sres := rfl
@[simp] theorem State.loadProgram_answer (p : List Byte) : (s.loadProgram p).answer = s.answer := rfl
@[simp] theorem State.loadProgram_activity (p : List Byte) : (s.loadProgram p).activity = s.activity := rfl
@[simp] theorem State.loadProgram_inbox (p : List Byte) : (s.loadProgram p).inbox = s.inbox := rfl
@[simp] theorem State.loadProgram_build (p : List Byte) : (s.loadProgram p).build = s.build := rfl
-- State.startRun
@[simp] theorem State.startRun_a (x y z : Nat) : (s.startRun x y z).a = x := rfl
@[simp] theorem State.startRun_b (x y z : Nat) : (s.startRun x y z).b = y := rfl
@[simp] theorem State.startRun_c (x y z : Nat) : (s.startRun x y z).c = z := rfl
@[simp] theorem State.startRun_pc (x y z : Nat) : (s.startRun x y z).pc = 0 := rfl
@[simp] theorem State.startRun_fcause (x y z : Nat) : (s.startRun x y z).fcause = .noFault := rfl
@[simp] theorem State.startRun_fpc (x y z : Nat) : (s.startRun x y z).fpc = 0 := rfl
@[simp] theorem State.startRun_fval (x y z : Nat) : (s.startRun x y z).fval = 0 := rfl
@[simp] theorem State.startRun_launched (x y z : Nat) : (s.startRun x y z).launched = true := rfl
@[simp] theorem State.startRun_prog (x y z : Nat) : (s.startRun x y z).prog = s.prog := rfl
@[simp] theorem State.startRun_len (x y z : Nat) : (s.startRun x y z).len = s.len := rfl
@[simp] theorem State.startRun_out (x y z : Nat) : (s.startRun x y z).out = [] := rfl
@[simp] theorem State.startRun_cand (x y z : Nat) : (s.startRun x y z).cand = s.cand := rfl
@[simp] theorem State.startRun_round (x y z : Nat) : (s.startRun x y z).round = s.round := rfl
@[simp] theorem State.startRun_shape (x y z : Nat) : (s.startRun x y z).shape = s.shape := rfl
@[simp] theorem State.startRun_seed (x y z : Nat) : (s.startRun x y z).seed = s.seed := rfl
@[simp] theorem State.startRun_vpos (x y z : Nat) : (s.startRun x y z).vpos = s.vpos := rfl
@[simp] theorem State.startRun_vres (x y z : Nat) : (s.startRun x y z).vres = s.vres := rfl
@[simp] theorem State.startRun_sres (x y z : Nat) : (s.startRun x y z).sres = none := rfl
@[simp] theorem State.startRun_answer (x y z : Nat) : (s.startRun x y z).answer = s.answer := rfl
@[simp] theorem State.startRun_activity (x y z : Nat) : (s.startRun x y z).activity = s.activity := rfl
@[simp] theorem State.startRun_inbox (x y z : Nat) : (s.startRun x y z).inbox = s.inbox := rfl
@[simp] theorem State.startRun_build (x y z : Nat) : (s.startRun x y z).build = s.build := rfl
-- State.endVerify
@[simp] theorem State.endVerify_a (r : VRes) : (s.endVerify r).a = s.a := rfl
@[simp] theorem State.endVerify_b (r : VRes) : (s.endVerify r).b = s.b := rfl
@[simp] theorem State.endVerify_c (r : VRes) : (s.endVerify r).c = s.c := rfl
@[simp] theorem State.endVerify_pc (r : VRes) : (s.endVerify r).pc = s.pc := rfl
@[simp] theorem State.endVerify_fcause (r : VRes) : (s.endVerify r).fcause = s.fcause := rfl
@[simp] theorem State.endVerify_fpc (r : VRes) : (s.endVerify r).fpc = s.fpc := rfl
@[simp] theorem State.endVerify_fval (r : VRes) : (s.endVerify r).fval = s.fval := rfl
@[simp] theorem State.endVerify_launched (r : VRes) : (s.endVerify r).launched = s.launched := rfl
@[simp] theorem State.endVerify_prog (r : VRes) : (s.endVerify r).prog = s.prog := rfl
@[simp] theorem State.endVerify_len (r : VRes) : (s.endVerify r).len = s.len := rfl
@[simp] theorem State.endVerify_out (r : VRes) : (s.endVerify r).out = s.out := rfl
@[simp] theorem State.endVerify_cand (r : VRes) : (s.endVerify r).cand = s.cand := rfl
@[simp] theorem State.endVerify_round (r : VRes) : (s.endVerify r).round = s.round := rfl
@[simp] theorem State.endVerify_shape (r : VRes) : (s.endVerify r).shape = s.shape := rfl
@[simp] theorem State.endVerify_seed (r : VRes) : (s.endVerify r).seed = s.seed := rfl
@[simp] theorem State.endVerify_vpos (r : VRes) : (s.endVerify r).vpos = s.vpos := rfl
@[simp] theorem State.endVerify_vres (r : VRes) : (s.endVerify r).vres = r := rfl
@[simp] theorem State.endVerify_sres (r : VRes) : (s.endVerify r).sres = s.sres := rfl
@[simp] theorem State.endVerify_answer (r : VRes) : (s.endVerify r).answer = .verify r := rfl
@[simp] theorem State.endVerify_activity (r : VRes) : (s.endVerify r).activity = .idle := rfl
@[simp] theorem State.endVerify_inbox (r : VRes) : (s.endVerify r).inbox = s.inbox := rfl
@[simp] theorem State.endVerify_build (r : VRes) : (s.endVerify r).build = s.build := rfl

end FieldLemmas

end Sys2Proof.Machine
end

