-- ==== Sys2Proof/Laws/Ops.lean ====
section
/-! SUPPORT. What each shared operation can do, said once: the combo operand, going on from a next state, an
instruction, the core's step, the machine's step. -/

namespace Sys2Proof.Machine

/-- Going on reaches a next state exactly through a next state. -/
theorem andThen_eq_next {o : Result} {f : State → Result} {t : State} :
    andThen o f = .next t ↔ ∃ u, o = .next u ∧ f u = .next t := by
  cases o <;> simp [andThen]

@[simp] theorem andThen_next (s : State) (f : State → Result) : andThen (.next s) f = f s := rfl

/-- Only 7 has no combo value (spec/40_step_cycle.md R95). -/
theorem combo_eq_none_iff (x : Oct) (s : State) : combo x s = none ↔ x = 7 := by
  revert x
  simp only [combo]
  intro x
  split <;> simp

/-- A combo operand that is not 7 has a value. -/
theorem combo_isSome_of_ne {x : Oct} (h : x ≠ 7) (s : State) : ∃ v, combo x s = some v :=
  Option.ne_none_iff_exists'.mp fun hn => h ((combo_eq_none_iff x s).mp hn)

theorem withCombo_of_some {x : Oct} {s : State} {v : Nat} (h : combo x s = some v) (f : State → Nat → State) :
    withCombo x s (f s) = .next (f s v) := by
  simp [withCombo, h]

/-- A combo instruction always gives a next state: its effect, or IllegalCombo raised. -/
theorem withCombo_cases (x : Oct) (s : State) (f : Nat → State) :
    (∃ v, combo x s = some v ∧ withCombo x s f = .next (f v)) ∨
      (x = 7 ∧ withCombo x s f = .next (s.raise .illegalCombo 7)) := by
  cases h : combo x s with
  | some v => exact .inl ⟨v, rfl, by simp [withCombo, h]⟩
  | none => exact .inr ⟨(combo_eq_none_iff x s).mp h, by simp [withCombo, h]⟩

/-- The effect of a well-formed instruction, as its meaning writes it. -/
def effect (i : Instr) (s : State) : State :=
  match i with
  | .adv x => ((s.setA (shiftRight s.a ((combo x s).getD 0))).advancePc).returns .continues
  | .bxl x => ((s.setB (xorNat s.b (literal x))).advancePc).returns .continues
  | .bst x => ((s.setB (low3 ((combo x s).getD 0)).toNat).advancePc).returns .continues
  | .jnz x => (if s.a ≠ 0 then s.setPc (literal x) else s.advancePc).returns .continues
  | .bxc _ => ((s.setB (xorNat s.b s.c)).advancePc).returns .continues
  | .out x =>
    ((s.emit (low3 ((combo x s).getD 0))).advancePc).returns (.output (low3 ((combo x s).getD 0)))
  | .bdv x => ((s.setB (shiftRight s.a ((combo x s).getD 0))).advancePc).returns .continues
  | .cdv x => ((s.setC (shiftRight s.a ((combo x s).getD 0))).advancePc).returns .continues

theorem withCombo_wf {x : Oct} (hx : comboLegal x = true) (s : State) (f : Nat → State) :
    withCombo x s f = .next (f ((combo x s).getD 0)) := by
  rcases withCombo_cases x s f with ⟨v, hv, h⟩ | ⟨h7, -⟩
  · simp [h, hv]
  · subst h7; exact absurd hx (by decide)

/-- A well-formed instruction has its effect. -/
theorem exec_of_wellFormed {i : Instr} (h : i.wellFormed = true) (s : State) :
    exec i s = .next (effect i s) := by
  cases i with
  | adv x => exact withCombo_wf h s _
  | bst x => exact withCombo_wf h s _
  | out x => exact withCombo_wf h s _
  | bdv x => exact withCombo_wf h s _
  | cdv x => exact withCombo_wf h s _
  | bxl x => rfl
  | jnz x => rfl
  | bxc x => rfl

/-- An ill-formed term raises IllegalCombo. -/
theorem exec_of_illFormed {i : Instr} (h : i.wellFormed = false) (s : State) :
    exec i s = .next (s.raise .illegalCombo 7) := by
  have key : ∀ {x : Oct} (f : Nat → State), comboLegal x = false →
      withCombo x s f = .next (s.raise .illegalCombo 7) := by
    intro x f hx
    have h7 : x = 7 := by simpa [comboLegal] using hx
    subst h7; rfl
  cases i with
  | adv x => exact key _ h
  | bst x => exact key _ h
  | out x => exact key _ h
  | bdv x => exact key _ h
  | cdv x => exact key _ h
  | bxl x => simp [Instr.wellFormed] at h
  | jnz x => simp [Instr.wellFormed] at h
  | bxc x => simp [Instr.wellFormed] at h

/-- What the decoder answers is a well-formed instruction. -/
theorem decode_wellFormed {c0 c1 : Byte} {i : Instr} (h : decode c0 c1 = .instr i) :
    i.wellFormed = true := by
  unfold decode at h
  split at h
  · cases h
  · split at h
    · cases h
    · split at h
      · cases h; assumption
      · cases h

/-- Everything a core step can do, by the case it is in (spec/40_step_cycle.md R90). -/
theorem coreStep_cases {s t : State} (h : coreStep s = .next t) :
    (s.fcause ≠ .noFault ∧ t = s.returns (.fault s.fcause s.fpc s.fval)) ∨
    (s.fcause = .noFault ∧ s.len ≤ s.pc ∧ t = s.returns .halt) ∨
    (s.fcause = .noFault ∧ s.pc + 1 = s.len ∧ t = s.raise .fetchTruncated 0) ∨
    (s.fcause = .noFault ∧ s.pc + 1 < s.len ∧ ∃ c0 c1, s.fetch = some (c0, c1) ∧
      ((∃ i, decode c0 c1 = .instr i ∧ i.wellFormed = true ∧ t = effect i s) ∨
       (∃ v, decode c0 c1 = .illegalOpcode v ∧ t = s.raise .illegalOpcode v) ∨
       (∃ v, decode c0 c1 = .illegalOperandCell v ∧ t = s.raise .illegalOperandCell v) ∨
       (∃ v, decode c0 c1 = .illegalCombo v ∧ t = s.raise .illegalCombo v))) := by
  unfold coreStep at h
  split at h
  · rename_i hf
    cases h; exact .inl ⟨hf, rfl⟩
  · rename_i hf
    have hf : s.fcause = .noFault := not_not.mp hf
    split at h
    · rename_i hp
      cases h; exact .inr (.inl ⟨hf, hp, rfl⟩)
    · split at h
      · cases h; exact .inr (.inr (.inl ⟨hf, by omega, rfl⟩))
      · split at h
        · rename_i c0 c1 hfetch
          refine .inr (.inr (.inr ⟨hf, by omega, c0, c1, hfetch, ?_⟩))
          cases hd : decode c0 c1 with
          | instr i =>
            have hw := decode_wellFormed hd
            rw [hd] at h
            rw [show execDecoded (.instr i) s = exec i s from rfl, exec_of_wellFormed hw] at h
            cases h; exact .inl ⟨i, rfl, hw, rfl⟩
          | illegalOpcode v => rw [hd] at h; cases h; exact .inr (.inl ⟨v, rfl, rfl⟩)
          | illegalOperandCell v => rw [hd] at h; cases h; exact .inr (.inr (.inl ⟨v, rfl, rfl⟩))
          | illegalCombo v => rw [hd] at h; cases h; exact .inr (.inr (.inr ⟨v, rfl, rfl⟩))
        · cases h

/-- On a loaded program the fetch inside it finds both cells. -/
theorem fetch_of_loaded {s : State} (hp : s.ProgramLoaded) (hpc : s.pc + 1 < s.len) :
    ∃ c0 c1, s.fetch = some (c0, c1) ∧ s.cell s.pc = some c0 ∧ s.cell (s.pc + 1) = some c1 := by
  have key : ∀ i, i < s.len → ∃ v, s.cell i = some v := by
    intro i hi
    obtain ⟨v, hv⟩ := Memory.read_isSome_of_mem s.prog i (by rw [hp]; exact List.mem_range.mpr hi)
    exact ⟨v, by simp [State.cell, hi, hv]⟩
  obtain ⟨c0, h0⟩ := key s.pc (by omega)
  obtain ⟨c1, h1⟩ := key (s.pc + 1) hpc
  exact ⟨c0, c1, by simp [State.fetch, h0, h1], h0, h1⟩

/-- Everything a command handed to a free machine can do (spec/45_run_commands.md R150): be refused, changing nothing
but the answer, or begin. -/
theorem startWith_cases {refusal : Option RefuseReason} {s u t : State} (h : startWith refusal s u = .next t) :
    (∃ why, refusal = some why ∧ t = s.refuse why) ∨ (refusal = none ∧ t = u) := by
  cases refusal with
  | some why => cases h; exact .inl ⟨why, rfl, rfl⟩
  | none => cases h; exact .inr ⟨rfl, rfl⟩

end Sys2Proof.Machine
end

