-- ==== Sys2Proof/Laws/Machine.lean ====
section
/-! SUPPORT. What a step of the whole machine can do, said once: the host's action, a command taken, a command carried
on, and the judging of a core step by each command. -/

namespace Sys2Proof.Machine

/-- The state with the host's next action taken from the inbox. -/
def popped (s : State) : State := { s with inbox := s.inbox.tail }

/-- A step of the machine takes the host's next action and then carries on the command in progress, takes a command, or
refuses one as Busy. -/
theorem step_cases {s t : State} (h : step s = .next t) :
    advance (popped s) = .next t ∨
    (s.activity = .idle ∧ ∃ cmd, accept cmd (popped s) = .next t ∧
      (s.inbox = [] ∧ cmd = .step ∨ ∃ rest, s.inbox = .issue cmd :: rest)) ∨
    (s.activity ≠ .idle ∧ t = (popped s).refuse .busy) := by
  unfold step machineStep at h
  split at h
  · rename_i hin
    have hp : popped s = s := by
      unfold popped
      rw [show s.inbox.tail = s.inbox by rw [hin]; rfl]
    rw [hp]
    split at h
    · rename_i ha
      exact .inr (.inl ⟨ha, .step, h, .inl ⟨hin, rfl⟩⟩)
    · exact .inl h
  · rename_i rest hin
    exact .inl (by simpa [popped, hin] using h)
  · rename_i cmd rest hin
    have hp : popped s = { s with inbox := rest } := by simp [popped, hin]
    rw [hp]
    unfold issue at h
    split at h
    · rename_i ha
      exact .inr (.inl ⟨ha, cmd, h, .inr ⟨rest, hin⟩⟩)
    · rename_i ha
      cases h
      exact .inr (.inr ⟨fun e => ha e, rfl⟩)

/-- What taking a command can do: refuse it, make one core step, or launch and begin. -/
theorem accept_cases {cmd : Command} {s t : State} (h : accept cmd s = .next t) :
    (∃ why, t = s.refuse why) ∨
    (cmd = .step ∧ s.launched = true ∧ ∃ u, coreStep s = .next u ∧ t = { u with answer := .step u.stepResult }) ∨
    (∃ p a b c, launchRefusal s.build p.length a b c = none ∧
      (t = { s.launch p a b c with answer := .noResult } ∨
       t = { s.launch p a b c with answer := .noResult, activity := .run } ∨
       t = { s.launch p a b c with answer := .noResult, activity := .firstOutput } ∨
       t = s.startVerify p a b c)) ∨
    (∃ p, launchRefusal s.build p.length 0 0 0 = none ∧ t = s.startSearch p) := by
  cases cmd with
  | launch p a b c =>
    rcases startWith_cases h with ⟨why, -, rfl⟩ | ⟨hr, rfl⟩
    · exact .inl ⟨why, rfl⟩
    · exact .inr (.inr (.inl ⟨p, a, b, c, hr, .inl rfl⟩))
  | step =>
    simp only [accept, stepCommand] at h
    split at h
    · cases h; exact .inl ⟨_, rfl⟩
    · rename_i hl
      obtain ⟨u, hu, ht⟩ := andThen_eq_next.mp h
      cases ht
      exact .inr (.inl ⟨rfl, by simpa using hl, u, hu, rfl⟩)
  | run p a b c =>
    rcases startWith_cases h with ⟨why, -, rfl⟩ | ⟨hr, rfl⟩
    · exact .inl ⟨why, rfl⟩
    · exact .inr (.inr (.inl ⟨p, a, b, c, hr, .inr (.inl rfl)⟩))
  | runUntilFirstOutput p a b c =>
    rcases startWith_cases h with ⟨why, -, rfl⟩ | ⟨hr, rfl⟩
    · exact .inl ⟨why, rfl⟩
    · exact .inr (.inr (.inl ⟨p, a, b, c, hr, .inr (.inr (.inl rfl))⟩))
  | findMinimalSeed p =>
    rcases startWith_cases h with ⟨why, -, rfl⟩ | ⟨hr, rfl⟩
    · exact .inl ⟨why, rfl⟩
    · exact .inr (.inr (.inr ⟨p, hr, rfl⟩))
  | verify p a b c =>
    rcases startWith_cases h with ⟨why, -, rfl⟩ | ⟨hr, rfl⟩
    · exact .inl ⟨why, rfl⟩
    · exact .inr (.inr (.inl ⟨p, a, b, c, hr, .inr (.inr (.inr rfl))⟩))

/-- After a core step, `run` either goes on or is over. -/
theorem judgeRun_cases (u : State) :
    judgeRun u = u ∨ ∃ r, judgeRun u = u.finish r := by
  unfold judgeRun
  split
  · exact .inl rfl
  · exact .inl rfl
  · exact .inr ⟨_, rfl⟩
  · exact .inr ⟨_, rfl⟩

/-- After a core step, `run_until_first_output` either goes on or is over. -/
theorem judgeFirst_cases (u : State) :
    judgeFirst u = u ∨ ∃ r, judgeFirst u = u.finish r := by
  unfold judgeFirst
  split
  · exact .inl rfl
  · exact .inr ⟨_, rfl⟩
  · exact .inr ⟨_, rfl⟩
  · exact .inr ⟨_, rfl⟩

/-- After a trial, the search takes the next value of the round or ends with CandidateOverflow. -/
theorem afterTrial_cases (t : Byte) (todo next : List Nat) (u : State) :
    afterTrial t todo next u = u.goTo (.seedNext t todo next) ∨
      afterTrial t todo next u = u.finish (.seedOverflow u.round) := by
  unfold afterTrial
  split
  · exact .inl rfl
  · exact .inr rfl

/-- What a verify does after a core step: goes on, counts a match, or is over with a result. -/
theorem judgeVerify_cases {u t : State} (h : judgeVerify u = .next t) :
    (u.stepResult = .continues ∧ t = u) ∨
    (∃ v e, u.stepResult = .output v ∧ u.vpos < u.len ∧ u.cell u.vpos = some e ∧ v.toNat = e.toNat ∧
      t = { u with vpos := u.vpos + 1 }) ∨
    (∃ v e, u.stepResult = .output v ∧ u.vpos < u.len ∧ u.cell u.vpos = some e ∧ v.toNat ≠ e.toNat ∧
      t = u.endVerify (.mismatch .wrongValue u.vpos (some e) (some v))) ∨
    (∃ v, u.stepResult = .output v ∧ u.len ≤ u.vpos ∧
      t = u.endVerify (.mismatch .excessOutput u.len none (some v))) ∨
    (∃ e, u.stepResult = .halt ∧ u.vpos < u.len ∧ u.cell u.vpos = some e ∧
      t = u.endVerify (.mismatch .prematureHalt u.vpos (some e) none)) ∨
    (u.stepResult = .halt ∧ u.len ≤ u.vpos ∧ t = u.endVerify .verified) ∨
    (∃ k p x, u.stepResult = .fault k p x ∧ t = u.endVerify (.fault k p x u.vpos)) := by
  unfold judgeVerify at h
  split at h
  · rename_i hr
    cases h; exact .inl ⟨hr, rfl⟩
  · rename_i v hr
    unfold verifyOutput at h
    split at h
    · rename_i hv
      cases h; exact .inr (.inr (.inr (.inl ⟨v, hr, hv, rfl⟩)))
    · rename_i hv
      split at h
      · rename_i e he
        split at h
        · rename_i hne
          cases h; exact .inr (.inr (.inl ⟨v, e, hr, by omega, he, hne, rfl⟩))
        · rename_i heq
          cases h; exact .inr (.inl ⟨v, e, hr, by omega, he, not_not.mp heq, rfl⟩)
      · cases h
  · rename_i hr
    unfold verifyHalt at h
    split at h
    · rename_i hv
      split at h
      · rename_i e he
        cases h; exact .inr (.inr (.inr (.inr (.inl ⟨e, hr, hv, he, rfl⟩))))
      · cases h
    · rename_i hv
      cases h; exact .inr (.inr (.inr (.inr (.inr (.inl ⟨hr, by omega, rfl⟩)))))
  · rename_i k p x hr
    cases h; exact .inr (.inr (.inr (.inr (.inr (.inr ⟨k, p, x, hr, rfl⟩)))))

/-- What carrying on the command in progress can do, command by command. -/
theorem advance_cases {s t : State} (h : advance s = .next t) :
    (s.activity = .idle ∧ t = s) ∨
    (s.activity = .run ∧ ∃ u, coreStep s = .next u ∧ t = judgeRun u) ∨
    (s.activity = .firstOutput ∧ ∃ u, coreStep s = .next u ∧ t = judgeFirst u) ∨
    (s.activity = .seedRound ∧ s.round < s.len ∧ ∃ e, s.cell (s.len - 1 - s.round) = some e ∧
      t = s.goTo (.seedNext e (expand s.cand) [])) ∨
    (s.activity = .seedRound ∧ s.len ≤ s.round ∧
      t = ({ s with seed := s.cand.min? } : State).finish (.seedOk s.cand.min?)) ∨
    (∃ e next, s.activity = .seedNext e [] next ∧ t = endRound s next) ∨
    (∃ e p' todo next, s.activity = .seedNext e (p' :: todo) next ∧
      ((∃ why, launchRefusal s.build s.len p' 0 0 = some why ∧ t = s.finish (.refused why)) ∨
       (launchRefusal s.build s.len p' 0 0 = none ∧
         t = (s.startRun p' 0 0).goTo (.seedTrial e p' todo next)))) ∨
    (∃ e p' todo next, s.activity = .seedTrial e p' todo next ∧
      ∃ u, coreStep s = .next u ∧ t = judgeTrial e p' todo next u) ∨
    (s.activity = .verify ∧ ∃ u, coreStep s = .next u ∧ judgeVerify u = .next t) := by
  unfold advance at h
  split at h
  · rename_i ha
    cases h; exact .inl ⟨ha, rfl⟩
  · rename_i ha
    obtain ⟨u, hu, ht⟩ := andThen_eq_next.mp h
    cases ht; exact .inr (.inl ⟨ha, u, hu, rfl⟩)
  · rename_i ha
    obtain ⟨u, hu, ht⟩ := andThen_eq_next.mp h
    cases ht; exact .inr (.inr (.inl ⟨ha, u, hu, rfl⟩))
  · rename_i ha
    unfold seedRoundStep at h
    split at h
    · rename_i hr
      split at h
      · rename_i e he
        cases h; exact .inr (.inr (.inr (.inl ⟨ha, hr, e, he, rfl⟩)))
      · cases h
    · rename_i hr
      cases h; exact .inr (.inr (.inr (.inr (.inl ⟨ha, by omega, rfl⟩))))
  · rename_i e todo next ha
    unfold seedNextStep at h
    split at h
    · cases h; exact .inr (.inr (.inr (.inr (.inr (.inl ⟨e, next, ha, rfl⟩)))))
    · rename_i p' rest
      refine .inr (.inr (.inr (.inr (.inr (.inr (.inl ⟨e, p', rest, next, ha, ?_⟩))))))
      split at h
      · rename_i why hw
        cases h; exact .inl ⟨why, hw, rfl⟩
      · rename_i hw
        cases h; exact .inr ⟨hw, rfl⟩
  · rename_i e p' todo next ha
    obtain ⟨u, hu, ht⟩ := andThen_eq_next.mp h
    cases ht
    exact .inr (.inr (.inr (.inr (.inr (.inr (.inr (.inl ⟨e, p', todo, next, ha, u, hu, rfl⟩)))))))
  · rename_i ha
    obtain ⟨u, hu, ht⟩ := andThen_eq_next.mp h
    exact .inr (.inr (.inr (.inr (.inr (.inr (.inr (.inr ⟨ha, u, hu, ht⟩)))))))

end Sys2Proof.Machine
end

