-- ==== Sys2Proof/Laws/PerInstr.lean ====
section
/-! SUPPORT. Statements about every instruction as syntax, one lemma for each constructor. -/

namespace Sys2Proof.Laws.EncodeFields

/-- The encoding of an instruction is two cells in the range 0..7, the opcode's number and the raw operand
(spec/30_encoding.md R71, R75). -/
def Statement (i : Instr) : Prop :=
  (encode i).1.toNat = i.op.toNat ∧ (encode i).2.toNat = i.operand.toNat ∧
  (encode i).1.toNat ≤ 7 ∧ (encode i).2.toNat ≤ 7

theorem fieldCell_toNat (f : Oct) : (fieldCell f).toNat = f.toNat ∧ (fieldCell f).toNat ≤ 7 := by
  revert f; decide

theorem of_fields (i : Instr) : Statement i :=
  ⟨(fieldCell_toNat i.op).1, (fieldCell_toNat i.operand).1, (fieldCell_toNat i.op).2,
    (fieldCell_toNat i.operand).2⟩

theorem adv (x : Oct) : Statement (.adv x) := of_fields _
theorem bxl (x : Oct) : Statement (.bxl x) := of_fields _
theorem bst (x : Oct) : Statement (.bst x) := of_fields _
theorem jnz (x : Oct) : Statement (.jnz x) := of_fields _
theorem bxc (x : Oct) : Statement (.bxc x) := of_fields _
theorem out (x : Oct) : Statement (.out x) := of_fields _
theorem bdv (x : Oct) : Statement (.bdv x) := of_fields _
theorem cdv (x : Oct) : Statement (.cdv x) := of_fields _

end Sys2Proof.Laws.EncodeFields
end

