-- ==== Sys2Proof/Tests/Slice0.lean ====
section
/-! SUPPORT. The model's own tests: the check of a term, decoding of words written out from spec/30_encoding.md R71 and R75,
one step per corner case with the results of spec/95_test_vectors.md, and a witness for the hypotheses of each
statement. -/

namespace Sys2Proof.Tests

open Sys2Proof Sys2Proof.Machine

/-- A launched core with a program and registers, at a pc. -/
def coreAt (program : List Byte) (a b c pc : Nat) : State := { State.reset.launch program a b c with pc := pc }

/-- A field of the next state, none where there is none. -/
def after {α : Type} (o : Result) (f : State → α) : Option α :=
  match o with
  | .next s => some (f s)
  | .fault _ => none
  | .refused _ => none

/-- `(pc, A, B, C)`, as spec/95_test_vectors.md writes a state. -/
def regs (s : State) : Nat × Nat × Nat × Nat := (s.pc, s.a, s.b, s.c)

/-- The state before the first launch, with a command waiting. -/
def withCommand (cmd : Command) : State := { State.reset with inbox := [.issue cmd] }

/-! The check of a term: spec/30_encoding.md R78, R79. -/

theorem test_wellFormed_refuses_combo_7 :
    Instr.wellFormed (.adv 7) = false ∧ Instr.wellFormed (.bst 7) = false ∧ Instr.wellFormed (.out 7) = false ∧
    Instr.wellFormed (.bdv 7) = false ∧ Instr.wellFormed (.cdv 7) = false := by decide

theorem test_wellFormed_accepts_7_elsewhere :
    Instr.wellFormed (.bxl 7) = true ∧ Instr.wellFormed (.jnz 7) = true ∧ Instr.wellFormed (.bxc 7) = true ∧
    Instr.wellFormed (.adv 6) = true := by decide

/-! Decoding: the two cells written bit by bit, `00000ooo` and `00000xxx` (R71, R75). -/

theorem test_decode_adv : decode 0b00000000#8 0b00000110#8 = .instr (.adv 6) := by decide
theorem test_decode_bxl : decode 0b00000001#8 0b00000111#8 = .instr (.bxl 7) := by decide
theorem test_decode_bst : decode 0b00000010#8 0b00000100#8 = .instr (.bst 4) := by decide
theorem test_decode_jnz : decode 0b00000011#8 0b00000101#8 = .instr (.jnz 5) := by decide
theorem test_decode_bxc : decode 0b00000100#8 0b00000111#8 = .instr (.bxc 7) := by decide
theorem test_decode_out : decode 0b00000101#8 0b00000100#8 = .instr (.out 4) := by decide
theorem test_decode_bdv : decode 0b00000110#8 0b00000101#8 = .instr (.bdv 5) := by decide
theorem test_decode_cdv : decode 0b00000111#8 0b00000010#8 = .instr (.cdv 2) := by decide

/-- The worked examples of R88 that are rejected. -/
theorem test_decode_rejections :
    decode 5 7 = .illegalCombo 7 ∧ decode 8 0 = .illegalOpcode 8 ∧ decode 9 9 = .illegalOpcode 9 ∧
    decode 3 8 = .illegalOperandCell 8 ∧ decode 0 255 = .illegalOperandCell 255 := by decide

/-- The match values of spec/opcode_table.json, with an operand. -/
theorem test_decodeTableWord :
    decodeTableWord 16 0x0003 = some (.adv 3) ∧ decodeTableWord 16 0x0302 = some (.jnz 2) ∧
    decodeTableWord 16 0x0700 = some (.cdv 0) ∧ decodeTableWord 16 0x1000 = none := by decide

/-! One step each: spec/95_test_vectors.md sections 3 to 6. -/

theorem test_adv_from_b : after (step (coreAt [0, 5] 1000 3 0 0)) regs = some (2, 125, 3, 0) := by decide
theorem test_adv_by_itself : after (step (coreAt [0, 4] 77 0 0 0)) regs = some (2, 0, 0, 0) := by decide
theorem test_bdv_old_b : after (step (coreAt [6, 5] 1000 2 1 0)) regs = some (2, 1000, 250, 1) := by decide
theorem test_bdv_from_c : after (step (coreAt [6, 6] 1000 2 1 0)) regs = some (2, 1000, 500, 1) := by decide
theorem test_cdv_old_c : after (step (coreAt [7, 6] 1000 2 1 0)) regs = some (2, 1000, 2, 500) := by decide
theorem test_cdv_from_b : after (step (coreAt [7, 5] 12345 4 0 0)) regs = some (2, 12345, 4, 771) := by decide
theorem test_bxl_literal : after (step (coreAt [1, 4] 99 8 0 0)) regs = some (2, 99, 12, 0) := by decide
theorem test_bxl_high_bits :
    after (step (coreAt [1, 3] 0 (2 ^ 100) 0 0)) regs = some (2, 0, 2 ^ 100 + 3, 0) := by decide
theorem test_bst_from_a : after (step (coreAt [2, 4] 15 99 0 0)) regs = some (2, 15, 7, 0) := by decide
theorem test_bst_from_c : after (step (coreAt [2, 6] 0 0 9 0)) regs = some (2, 0, 1, 9) := by decide
theorem test_bxc : after (step (coreAt [4, 0] 0 2024 43690 0)) regs = some (2, 0, 44354, 43690) := by decide
theorem test_bxc_operand_ignored : after (step (coreAt [4, 7] 0 6 3 0)) regs = some (2, 0, 5, 3) := by decide
theorem test_jnz_fires_on_all_of_a :
    after (step (coreAt [3, 4] (2 ^ 90) 0 0 0)) regs = some (4, 2 ^ 90, 0, 0) := by decide
theorem test_jnz_falls_through :
    after (step (coreAt [0, 1, 5, 4, 3, 0] 0 0 0 4)) regs = some (6, 0, 0, 0) := by decide
theorem test_out : after (step (coreAt [5, 4] 1012 0 0 0)) (fun t => (regs t, t.out, t.answer)) =
    some ((2, 1012, 0, 0), [4], .step (.output 4)) := by decide
theorem test_out_wide_register : after (step (coreAt [5, 5] 0 (2 ^ 64 + 5) 0 0)) (fun t => (t.out, t.answer)) =
    some ([5], .step (.output 5)) := by decide

theorem test_out_7_faults : after (step (coreAt [5, 7] 9 9 9 0)) (fun t => (regs t, t.out, t.answer)) =
    some ((0, 9, 9, 9), [], .step (.fault .illegalCombo 0 7)) := by decide
theorem test_opcode_8_faults : after (step (coreAt [8, 0] 0 0 0 0)) (fun t => (regs t, t.answer)) =
    some ((0, 0, 0, 0), .step (.fault .illegalOpcode 0 8)) := by decide
theorem test_jnz_operand_8_faults : after (step (coreAt [3, 8] 0 0 0 0)) (fun t => (regs t, t.answer)) =
    some ((0, 0, 0, 0), .step (.fault .illegalOperandCell 0 8)) := by decide
theorem test_truncated_fetch : after (step (coreAt [9] 0 0 0 0)) (fun t => (regs t, t.answer)) =
    some ((0, 0, 0, 0), .step (.fault .fetchTruncated 0 0)) := by decide
theorem test_empty_program_halts : after (step (coreAt [] 1 2 3 0)) (fun t => (regs t, t.answer)) =
    some ((0, 1, 2, 3), .step .halt) := by decide
theorem test_step_before_launch : after (step State.reset) (fun t => t.answer) =
    some (.refused .notLaunched) := by decide

/-- `withFetchWord` places the instruction where the next step runs it, as the first one after reset. -/
theorem test_withFetchWord : after (step (State.reset.withFetchWord 16 0x0503)) (fun t => (t.pc, t.out)) =
    some (2, [3]) := by decide

/-! Witnesses: a state, and operands, that meet the hypotheses of a statement, at the boundary of each clause. -/

theorem test_witness_decode : 7 < (8 : Byte).toNat ∧ ¬ 7 < (7 : Byte).toNat ∧
    ((7 : Byte).toNat ∈ [0, 2, 5, 6, 7] ∧ (7 : Byte).toNat = 7) ∧
    ¬ ((1 : Byte).toNat ∈ [0, 2, 5, 6, 7] ∧ (7 : Byte).toNat = 7) ∧
    ¬ ((0 : Byte).toNat ∈ [0, 2, 5, 6, 7] ∧ (6 : Byte).toNat = 7) := by decide

theorem test_witness_inverse : Instr.wellFormed (.cdv 6) = true ∧ decode 7 6 = .instr (.cdv 6) := by decide

/-- StepRunsTheDecodedInstruction, on the last two cells of a program. -/
theorem test_witness_step_runs :
    let s := coreAt [0, 1, 5, 4] 9 0 0 2
    s.fcause = .noFault ∧ s.cell s.pc = some 5 ∧ s.cell (s.pc + 1) = some 4 ∧ decode 5 4 = .instr (.out 4) ∧
    s.launched = true ∧ s.HostSteps := by decide

/-- MachineFollowsTheHost: a state for each clause. -/
theorem test_witness_host :
    let s := coreAt [5, 4] 9 0 0 0
    ({ s with inbox := [.wait] } : State).inbox = .wait :: [] ∧
    (({ s with inbox := [.issue .step] } : State).inbox = .issue .step :: [] ∧
      ({ s with inbox := [.issue .step] } : State).activity = .idle) ∧
    (({ s with inbox := [.issue .step], activity := .run } : State).inbox = .issue .step :: [] ∧
      ({ s with inbox := [.issue .step], activity := .run } : State).activity ≠ .idle) ∧
    (({ s with activity := .verify } : State).inbox = [] ∧ ({ s with activity := .verify } : State).activity ≠ .idle) ∧
    s.HostSteps := by decide

/-- RaisesIllegalCombo, in AdvEffect, BstEffect, OutEffect, BdvEffect and CdvEffect: one state for each opcode. -/
theorem test_witness_illegal_combo : ∀ op ∈ [(0 : Byte), 2, 5, 6, 7],
    (coreAt [op, 7] 1 1 1 0).fcause = .noFault ∧ (coreAt [op, 7] 1 1 1 0).cell 0 = some op ∧
    (coreAt [op, 7] 1 1 1 0).cell (0 + 1) = some 7 := by decide

/-- RaisesFetchFaults, in the effect of every instruction: a missing operand cell, and one of 8. -/
theorem test_witness_each_fetch_fault : ∀ op ∈ [(0 : Byte), 1, 2, 3, 4, 5, 6, 7],
    (coreAt [op] 1 1 1 0).fcause = .noFault ∧ (coreAt [op] 1 1 1 0).cell 0 = some op ∧
    0 + 1 = (coreAt [op] 1 1 1 0).len ∧ (coreAt [op, 8] 1 1 1 0).cell 0 = some op ∧
    (coreAt [op, 8] 1 1 1 0).cell (0 + 1) = some 8 ∧ 8 ≤ (8 : Byte).toNat := by decide

/-- AdvEffect: `k = bitlen A`. CdvEffect: `B = bitlen A`. -/
theorem test_witness_shift_whole_width :
    combo 3 (coreAt [0, 3] 7 0 0 0) = some 3 ∧ bitlen 7 ≤ 3 ∧ (6 : Oct) ≠ 7 ∧
    bitlen (coreAt [7, 5] 12345 14 0 0).a ≤ (coreAt [7, 5] 12345 14 0 0).b := by decide

/-- BstEffect, OutEffect: the largest constant operand. BxcEffect: `C = 0` and `B = C`. JnzEffect: both cases. -/
theorem test_witness_effect_clauses :
    (3 : Oct).toNat ≤ 3 ∧ (3 : Oct) ≠ 7 ∧ (coreAt [4, 1] 0 5 0 0).c = 0 ∧
    (coreAt [4, 3] 0 5 5 0).b = (coreAt [4, 3] 0 5 5 0).c ∧ (coreAt [3, 0] 1 0 0 0).a ≠ 0 ∧
    (coreAt [3, 0] 0 0 0 0).a = 0 := by decide

/-- BdvThenCdvAgree, with the operand C, which bdv leaves alone. -/
theorem test_witness_bdv_then_cdv :
    ∃ t u, (6 : Oct) ≠ 5 ∧ (6 : Oct) ≠ 7 ∧ exec (.bdv 6) (coreAt [6, 6, 7, 6] 1000 2 1 0) = .next t ∧
      exec (.cdv 6) t = .next u ∧ u.b = 500 ∧ u.c = 500 := ⟨_, _, by decide, by decide, rfl, rfl, by decide, by decide⟩

/-- InstructionWritesOnlyItsDestination, PcAndResultOfEveryInstruction, RegisterBitsNeverGrow: an instruction that writes
a register and one that fires a jump. -/
theorem test_witness_exec_next :
    (∃ t, Instr.wellFormed (.adv 6) = true ∧ exec (.adv 6) (coreAt [0, 6] 1000 0 10 0) = .next t ∧ t.a = 0) ∧
    (∃ t, Instr.wellFormed (.jnz 7) = true ∧ exec (.jnz 7) (coreAt [3, 7] 5 0 0 0) = .next t ∧ t.pc = 7) ∧
    (∃ t, Instr.wellFormed (.out 4) = true ∧ exec (.out 4) (coreAt [5, 4] 10 0 0 0) = .next t ∧ t.out = [2]) :=
  ⟨⟨_, by decide, rfl, by decide⟩, ⟨_, by decide, rfl, by decide⟩, ⟨_, by decide, rfl, by decide⟩⟩

/-- InstructionReadsOnlyItsRegisters: two states that differ in every register bst 5 does not read, and in B for jnz. -/
theorem test_witness_reads :
    AgreeOnReads (.bst 5) (coreAt [] 1 29 2 0) (coreAt [] 3 29 4 0) ∧
    AgreeOnReads (.jnz 1) (coreAt [] 1 29 2 0) (coreAt [] 1 30 4 0) ∧
    (coreAt [] 1 29 2 0).pc = (coreAt [] 3 29 4 0).pc ∧
    (∃ t, exec (.bst 5) (coreAt [] 1 29 2 0) = .next t ∧ t.b = 5) ∧
    (∃ t, exec (.bst 5) (coreAt [] 3 29 4 0) = .next t ∧ t.b = 5) := by
  refine ⟨?_, ?_, by decide, ⟨_, rfl, by decide⟩, ⟨_, rfl, by decide⟩⟩ <;>
    simp [AgreeOnReads, readsOf, coreAt, State.launch]

/-- ExecAlwaysReachesANextState: a term that is no instruction. -/
theorem test_witness_ill_formed : Instr.wellFormed (.out 7) = false := by decide

/-- RegisterANeverGrows, OutputIsAppendOnly, FirstOutputIsTheHeadOfTheTrace: three steps of the source's example. -/
theorem test_witness_core_steps :
    ∃ t, (coreAt [0, 1, 5, 4, 3, 0] 2024 0 0 0).out = [] ∧
      coreSteps 3 (coreAt [0, 1, 5, 4, 3, 0] 2024 0 0 0) = .next t ∧ t.out = 4 :: [] ∧ t.a = 1012 :=
  ⟨_, by decide, rfl, by decide, by decide⟩

/-- HaltIsPermanent at `pc = LEN`, and a step that returns Halt. -/
theorem test_witness_halt :
    (coreAt [0, 1] 0 0 0 2).fcause = .noFault ∧ (coreAt [0, 1] 0 0 0 2).len ≤ (coreAt [0, 1] 0 0 0 2).pc ∧
    ∃ t, coreStep (coreAt [0, 1] 0 0 0 2) = .next t ∧ t.sres = some .halt :=
  ⟨by decide, by decide, _, rfl, by decide⟩

/-- FaultIsSticky: a core that has faulted, driven by steps. -/
theorem test_witness_faulted :
    let s := (coreAt [5, 7] 9 9 9 0).raise .illegalCombo 7
    s.fcause ≠ .noFault ∧ s.launched = true ∧ s.HostSteps := by decide

/-- FaultsOfAFetch: a state for each clause, at the boundary values 8 and 7. -/
theorem test_witness_fetch_faults :
    ((coreAt [0, 0, 0] 0 0 0 2).pc + 1 = (coreAt [0, 0, 0] 0 0 0 2).len ∧
      (coreAt [0, 0, 0] 0 0 0 2).fcause = .noFault) ∧
    ((coreAt [8, 8] 0 0 0 0).cell 0 = some 8 ∧ (coreAt [8, 8] 0 0 0 0).cell 1 = some 8 ∧ 8 ≤ (8 : Byte).toNat) ∧
    ((coreAt [7, 8] 0 0 0 0).cell 0 = some 7 ∧ (coreAt [7, 8] 0 0 0 0).cell 1 = some 8 ∧ (7 : Byte).toNat < 8) ∧
    ((coreAt [7, 7] 0 0 0 0).cell 0 = some 7 ∧ (7 : Byte).toNat ∈ [0, 2, 5, 6, 7] ∧ (7 : Byte).toNat = 7) := by
  decide

/-- FaultsArePrecise: a step that faults and one that does not. -/
theorem test_witness_precise :
    (∃ t, (coreAt [9, 9] 1 2 3 0).fcause = .noFault ∧ coreStep (coreAt [9, 9] 1 2 3 0) = .next t ∧
      t.fcause = .illegalOpcode) ∧
    ∃ t, coreStep (coreAt [0, 0] 1 2 3 0) = .next t ∧ t.fcause = .noFault :=
  ⟨⟨_, by decide, rfl, by decide⟩, _, rfl, by decide⟩

/-- EvenPcStaysEven: a jump that fires with an even operand. -/
theorem test_witness_even_pc :
    let s := coreAt [3, 6] 1 0 0 0
    s.pc % 2 = 0 ∧ (∃ t, coreStep s = .next t ∧ t.pc = 6) ∧
    ∀ c0 c1 x, s.fetch = some (c0, c1) → decode c0 c1 = .instr (.jnz x) → s.a ≠ 0 → x.toNat % 2 = 0 := by
  refine ⟨by decide, ⟨_, rfl, by decide⟩, ?_⟩
  intro c0 c1 x hf hd _
  have hf' : (coreAt [3, 6] 1 0 0 0).fetch = some (3, 6) := by decide
  cases hf'.symm.trans hf
  cases (show decode 3 6 = .instr (.jnz 6) by decide).symm.trans hd
  decide

/-- JumpToItselfNeverEnds, at an odd address. -/
theorem test_witness_jump_to_itself :
    let s := coreAt [1, 3, 1] 1 0 0 1
    s.fcause = .noFault ∧ s.a ≠ 0 ∧ s.pc = (1 : Oct).toNat ∧ s.cell s.pc = some 3 ∧
    s.cell (s.pc + 1) = some (fieldCell 1) := by decide

/-- RunWithoutJnzEnds: the cells at the even indices are no 3, though an odd one is. -/
theorem test_witness_no_jnz : ∀ k, ([1, 3, 0] : List Byte)[2 * k]? ≠ some 3 := by
  intro k
  match k with
  | 0 => decide
  | 1 => decide
  | n + 2 => rw [List.getElem?_eq_none (by simp; omega)]; simp

/-- CoreStepDependsOnTheCoreAlone: two states that differ in the search's and the verifier's state. -/
theorem test_witness_same_core :
    SameCore (coreAt [5, 4] 9 0 0 0) { coreAt [5, 4] 9 0 0 0 with cand := [1], vpos := 3, activity := .run } ∧
    ∃ t, coreSteps 1 (coreAt [5, 4] 9 0 0 0) = .next t ∧ t.out = [1] :=
  ⟨by simp [SameCore], _, rfl, by decide⟩

/-- LaunchSetsTheCore and every command that launches: the normative build accepts; a finite one at its limits. -/
theorem test_witness_launch_accepted :
    launchRefusal Config.normative 6 2024 0 0 = none ∧
    launchRefusal { regw := some 3, pcw := some 3, maxlen := some 7, candcap := some 1 } 7 7 7 7 = none := by decide

/-- WhenALaunchIsRefused: just past each limit. -/
theorem test_witness_launch_refused :
    launchRefusal { regw := some 3, pcw := none, maxlen := none, candcap := none } 1 0 0 8 = some .tooWide ∧
    launchRefusal { regw := some 3, pcw := none, maxlen := some 6, candcap := none } 7 0 0 7 = some .tooLong ∧
    launchRefusal { regw := none, pcw := some 3, maxlen := none, candcap := none } 8 0 0 0 = some .tooLong := by
  decide

/-- LaunchForgetsTheEarlierCore, UnlaunchedStepIsRefused: the state before the first launch, and a command under way. -/
theorem test_witness_unlaunched :
    State.reset.activity = .idle ∧ State.reset.launched = false ∧ State.reset.HostSteps ∧
    ({ coreAt [] 0 0 0 0 with activity := .run } : State).activity ≠ .idle := by decide

/-- RefusedCommandsChangeNothing: a refusal of each kind. -/
theorem test_witness_refused_commands :
    (∃ t, issue .step State.reset = .next t ∧ t.answer = .refused .notLaunched) ∧
    (∃ t, issue .step { coreAt [] 0 0 0 0 with activity := .verify } = .next t ∧ t.answer = .refused .busy) ∧
    (∃ t, issue (.launch [] 8 0 0)
      { State.reset with build := { regw := some 3, pcw := none, maxlen := none, candcap := none } } = .next t ∧
      t.answer = .refused .tooWide) :=
  ⟨⟨_, rfl, by decide⟩, ⟨_, rfl, by decide⟩, ⟨_, rfl, by decide⟩⟩

/-- ProgramIsImmutableDuringACommand: a run under way, and single steps. -/
theorem test_witness_immutable :
    (∃ t, step { coreAt [5, 4] 9 0 0 0 with activity := .run } = .next t ∧ t.out = [1]) ∧
    (∃ t, step (coreAt [5, 4] 9 0 0 0) = .next t ∧ t.out = [1]) ∧
    ∀ cmd rest, (coreAt [5, 4] 9 0 0 0).inbox = .issue cmd :: rest → cmd = .step :=
  ⟨⟨_, rfl, by decide⟩, ⟨_, rfl, by decide⟩, fun _ _ h => by cases h⟩

/-- EachEngineWritesOnlyItsOwnState: a run under way, neither a search nor a verify. -/
theorem test_witness_engines :
    let s : State := { coreAt [5, 4] 9 0 0 0 with activity := .run }
    (∃ t, step s = .next t ∧ t.out = [1]) ∧ s.activity ∈ [.idle, .run, .firstOutput, .verify] ∧
    s.activity ≠ .verify ∧ (∀ p rest, s.inbox ≠ .issue (.findMinimalSeed p) :: rest) ∧
    ∀ p a b c rest, s.inbox ≠ .issue (.verify p a b c) :: rest := by
  refine ⟨⟨_, rfl, by decide⟩, by decide, by decide, ?_, ?_⟩ <;> intros <;>
    simp [coreAt, State.launch, State.reset]

/-- InvariantsHoldAtReset: a host with a command, and a finite build. -/
theorem test_witness_reset : ∃ s : State,
    s = { State.reset with
          inbox := [.issue .step], build := { regw := some 128, pcw := some 8, maxlen := some 42, candcap := some 9 } } :=
  ⟨_, rfl⟩

/-- StepKeepsProgramLoaded, NoRunIsEverStopped, StepKeepsPcInRange, StepKeepsTheBuildsWidths: a launched core under way,
its pc at the limit `max(LEN, 7)`. -/
theorem test_witness_loaded :
    let s := coreAt [3, 7] 5 0 0 7
    s.ProgramLoaded ∧ s.PcInRange ∧ s.CommandLaunched ∧ ∃ t, step s = .next t ∧ t.pc = 7 :=
  ⟨by decide, by decide, by decide, _, rfl, by decide⟩

theorem test_witness_widths :
    let s : State :=
      { coreAt [0, 1] 7 7 7 0 with build := { regw := some 3, pcw := some 3, maxlen := some 2, candcap := none } }
    (∀ w, s.build.regw = some w → 3 ≤ w) ∧ s.FitsBuild ∧ s.CommandLaunched ∧ ∃ t, step s = .next t ∧ t.a = 3 := by
  refine ⟨?_, ?_, by decide, _, rfl, by decide⟩
  · intro w h
    cases h
    decide
  · intro _
    decide

/-- StepKeepsTheLatchConsistent: a core that has just taken a fault. -/
theorem test_witness_latch :
    ((coreAt [9, 9] 0 0 0 0).raise .illegalOpcode 9).LatchConsistent ∧
    ((coreAt [9] 0 0 0 0).raise .fetchTruncated 0).LatchConsistent ∧
    ((coreAt [9, 9] 0 0 0 0).raise .illegalOpcode 9).CommandLaunched := by
  refine ⟨⟨rfl, 9, 9, by decide, by decide⟩, ⟨rfl, rfl, by decide⟩, by decide⟩

/-- A search that has just begun, and its first trial. -/
def searching : State := State.reset.startSearch [5, 0]

/-- StepKeepsTheSearchOrdered, at the start of a search. -/
theorem test_witness_search_ordered : searching.SearchOrdered ∧ ∃ t, step searching = .next t ∧ t.round = 0 := by
  refine ⟨⟨?_, ?_, ?_, ?_⟩, _, rfl, by decide⟩ <;> simp [searching, State.startSearch]

/-- StepKeepsTheSearchExact, at the start of a search, where CAND is `[0]` and no test has been made. -/
theorem test_witness_search_exact : searching.SearchExact ∧ ∃ t, step searching = .next t ∧ t.round = 0 := by
  refine ⟨⟨?_, by decide⟩, _, rfl, by decide⟩
  intro q
  simp only [searching, State.startSearch, PrefixesPass, List.mem_singleton, pow_zero]
  exact ⟨fun h => ⟨by omega, fun j h1 h2 => by omega⟩, fun h => by omega⟩

/-- FindMinimalSeedAnswersTheLeast: `Some(0)` for the empty program (R192), None for `[5,1,8,0]`
(spec/95_test_vectors.md section 9). -/
theorem test_witness_find :
    (withCommand (.findMinimalSeed [])).activity = .idle ∧
    after (machineRun 2 (withCommand (.findMinimalSeed []))) (fun t => t.answer) = some (.seedOk (some 0)) ∧
    after (machineRun 19 (withCommand (.findMinimalSeed [5, 1, 8, 0]))) (fun t => (t.answer, t.shape)) =
      some (.seedOk none, false) := by decide

/-- WhatATrialStepMeans: a trial that goes on, one that outputs (a match, with the store full and not), one that halts,
one that faults. -/
theorem test_witness_trial :
    let trial (p : List Byte) (next : List Nat) : State :=
      { coreAt p 0 0 0 0 with
        activity := .seedTrial 0 0 [1] next, build := { Config.normative with candcap := some 1 } }
    (∃ u, coreStep (trial [0, 1] []) = .next u ∧ u.sres = some .continues) ∧
    (∃ u, coreStep (trial [5, 0] []) = .next u ∧ u.sres = some (.output 0) ∧ ([0] : List Nat).length ≤ 1) ∧
    (∃ u, coreStep (trial [5, 0] [9]) = .next u ∧ u.sres = some (.output 0) ∧ 1 < ([9, 0] : List Nat).length) ∧
    (∃ u, coreStep (trial [] [9]) = .next u ∧ u.sres = some .halt ∧ withinCap [9].length (some 1) = true) ∧
    ∃ u, coreStep (trial [5, 7] []) = .next u ∧ u.sres = some (.fault .illegalCombo 0 7) :=
  ⟨⟨_, rfl, by decide⟩, ⟨_, rfl, by decide, by decide⟩, ⟨_, rfl, by decide, by decide⟩,
    ⟨_, rfl, by decide, by decide⟩, _, rfl, by decide⟩

/-- LoopsOfTheSearch: a state at each loop head. -/
theorem test_witness_loops :
    let at' (x : Activity) (r : Nat) : State := { coreAt [5, 0] 0 0 0 0 with activity := x, round := r, cand := [0] }
    ((at' .seedRound 1).inbox = [] ∧ (at' .seedRound 1).round < (at' .seedRound 1).len ∧
      (at' .seedRound 1).cell ((at' .seedRound 1).len - 1 - 1) = some 5) ∧
    (at' .seedRound 2).len ≤ (at' .seedRound 2).round ∧
    ((at' (.seedNext 5 [7] []) 1).activity = .seedNext 5 (7 :: []) [] ∧
      launchRefusal (at' .seedRound 1).build 2 7 0 0 = none) ∧
    (at' (.seedNext 5 [] [3]) 1).activity = .seedNext 5 [] [3] ∧
    (at' (.seedNext 5 [] []) 1).activity = .seedNext 5 [] [] := by decide

/-- SearchOfTheEmptyProgram. -/
theorem test_witness_empty_search :
    (withCommand (.findMinimalSeed [])).activity = .idle ∧
    (withCommand (.findMinimalSeed [])).inbox = [.issue (.findMinimalSeed [])] ∧
    launchRefusal (withCommand (.findMinimalSeed [])).build 0 0 0 0 = none := by decide

/-- A verify of `p` under way at a pc, with the outputs so far. -/
def verifying (p : List Byte) (b pc : Nat) (outs : List Oct) : State :=
  { State.reset.startVerify p 0 b 0 with pc := pc, out := outs, vpos := outs.length }

/-- StepKeepsTheVerifierMatched: one output matched. -/
theorem test_witness_verify_matched : (verifying [5, 5] 5 2 [5]).VerifyMatched := by
  intro _
  refine ⟨rfl, by decide, rfl, ?_⟩
  intro k v h
  match k with
  | 0 => cases h; exact ⟨5, by decide, by decide⟩
  | n + 1 => simp [verifying] at h

/-- WhatAVerifyStepMeans and FieldsOfTheVerifiersResult: each kind of result is reached from such a state. -/
theorem test_witness_verify_results :
    after (step (verifying [5, 5] 0 0 [])) (fun t => t.vres) = some (.mismatch .wrongValue 0 (some 5) (some 0)) ∧
    after (step (verifying [5, 5] 5 2 [5])) (fun t => t.vres) = some (.mismatch .prematureHalt 1 (some 5) none) ∧
    after (step (verifying [5, 5] 0 0 [5, 5])) (fun t => t.vres) =
      some (.mismatch .excessOutput 2 none (some 0)) ∧
    after (step (verifying [5, 7] 0 0 [])) (fun t => t.vres) = some (.fault .illegalCombo 0 7 0) ∧
    after (step (verifying [5, 5] 5 0 [])) (fun t => (t.vpos, t.vres)) = some (1, .pending) ∧
    after (step (verifying [1, 5] 5 0 [])) (fun t => (t.vpos, t.vres)) = some (0, .pending) := by decide

/-- VerifiedMeansReproduced: the halt after the last match. -/
theorem test_witness_verified : (verifying [5, 5] 5 2 [5, 5]).VerifyMatched ∧
    after (step (verifying [5, 5] 5 2 [5, 5])) (fun t => t.vres) = some .verified := by
  refine ⟨?_, by decide⟩
  intro _
  refine ⟨rfl, by decide, rfl, ?_⟩
  intro k v h
  match k with
  | 0 => cases h; exact ⟨5, by decide, by decide⟩
  | 1 => cases h; exact ⟨5, by decide, by decide⟩
  | n + 2 => simp [verifying] at h

/-- VerifyAgreesWithRun: both sides hold for the empty program (spec/95_test_vectors.md section 8). -/
theorem test_witness_verify_run :
    (withCommand (.verify [] 3 0 0)).activity = .idle ∧
    after (machineRun 2 (withCommand (.verify [] 3 0 0))) (fun t => t.answer) = some (.verify .verified) ∧
    after (coreSteps 0 (State.reset.launch [] 3 0 0)) (fun u => (u.status, u.out)) = some (.halt, []) := by decide

/-- RunCommandIsItsCoreSteps: `run([], 1, 2, 3) = Ok([])`, and a run that faults. -/
theorem test_witness_run :
    after (coreSteps 0 (State.reset.launch [] 1 2 3)) (fun u => u.status) = some .halt ∧
    after (coreSteps 1 (State.reset.launch [5, 7] 0 0 0)) (fun u => u.status) = some .fault ∧
    after (machineRun 2 (withCommand (.run [] 1 2 3))) (fun t => t.answer) = some (.runOk []) ∧
    after (machineRun 3 (withCommand (.run [5, 0, 8, 0] 3 0 0))) (fun t => t.answer) =
      some (.runFault .illegalOpcode 2 8 [0]) := by decide

/-- FirstOutputCommandStopsAtTheFirst: an output on the first step, a halt before any, a fault before any; and an answer of
each kind. -/
theorem test_witness_first_output :
    after (coreSteps 0 (State.reset.launch [5, 0, 8, 0] 3 0 0)) (fun u => u.out) = some [] ∧
    after (coreStep (State.reset.launch [5, 0, 8, 0] 3 0 0)) (fun w => w.sres) = some (some (.output 0)) ∧
    after (coreSteps 1 (State.reset.launch [0, 3] 5 0 0)) (fun u => (u.out, u.status)) = some ([], .halt) ∧
    after (coreSteps 1 (State.reset.launch [0, 7] 1 0 0)) (fun u => (u.out, u.status)) = some ([], .fault) ∧
    after (machineRun 2 (withCommand (.runUntilFirstOutput [5, 0, 8, 0] 3 0 0))) (fun t => (regs t, t.answer)) =
      some ((2, 3, 0, 0), .firstOk (some 0)) ∧
    after (machineRun 3 (withCommand (.runUntilFirstOutput [0, 3] 5 0 0))) (fun t => t.answer) =
      some (.firstOk none) ∧
    after (machineRun 2 (withCommand (.runUntilFirstOutput [0, 7] 1 0 0))) (fun t => t.answer) =
      some (.firstFault .illegalCombo 0 7) := by decide

end Sys2Proof.Tests
end

section
/-! PROOF. What an instruction and a step of the core write and leave alone, said once as rules on `effect` and
`coreStep` (spec/10_state.md R23, R24, R36; spec/40_step_cycle.md R90, R98; spec/60_exceptions.md R240). -/

namespace Sys2Proof.Machine

/-! The surroundings of the core. -/

theorem SameSurroundings.refl (s : State) : SameSurroundings s s :=
  ⟨rfl, rfl, rfl, rfl, rfl, rfl, rfl, rfl, rfl, rfl, rfl, rfl, rfl⟩

theorem SameSurroundings.trans {s t u : State} (h : SameSurroundings s t) (h' : SameSurroundings t u) :
    SameSurroundings s u := by
  simp only [SameSurroundings] at h h' ⊢
  simp only [h, h', and_self]

theorem SameSurroundings.launched_eq {s t : State} (h : SameSurroundings s t) : s.launched = t.launched := h.1

theorem SameSurroundings.prog_eq {s t : State} (h : SameSurroundings s t) : s.prog = t.prog := h.2.1

theorem SameSurroundings.len_eq {s t : State} (h : SameSurroundings s t) : s.len = t.len := h.2.2.1

theorem SameSurroundings.build_eq {s t : State} (h : SameSurroundings s t) : s.build = t.build := by
  simp only [SameSurroundings] at h
  simp only [h]

/-! The effect of an instruction, field by field. -/

/-- `jnz` writes the pc alone, with either value (spec/43_jump.md R130). -/
theorem effect_jnz (x : Oct) (s : State) :
    effect (.jnz x) s = (s.setPc (if s.a ≠ 0 then literal x else s.pc + 2)).returns .continues := by
  simp only [effect]
  split <;> rfl

theorem effect_sameSurroundings (i : Instr) (s : State) : SameSurroundings s (effect i s) := by
  cases i with
  | jnz x => rw [effect_jnz]; exact .refl s
  | _ => exact .refl s

/-- No instruction writes the fault latch (spec/60_exceptions.md R240). -/
theorem effect_keeps_latch (i : Instr) (s : State) :
    (effect i s).fcause = s.fcause ∧ (effect i s).fpc = s.fpc ∧ (effect i s).fval = s.fval := by
  cases i with
  | jnz x => rw [effect_jnz]; exact ⟨rfl, rfl, rfl⟩
  | _ => exact ⟨rfl, rfl, rfl⟩

theorem effect_a_of_ne_adv {i : Instr} (h : ∀ x, i ≠ .adv x) (s : State) : (effect i s).a = s.a := by
  cases i with
  | adv x => exact absurd rfl (h x)
  | jnz x => rw [effect_jnz]; rfl
  | _ => rfl

theorem effect_b_of_no_write {i : Instr} (h : ∀ x, i ≠ .bxl x ∧ i ≠ .bst x ∧ i ≠ .bxc x ∧ i ≠ .bdv x)
    (s : State) : (effect i s).b = s.b := by
  cases i with
  | bxl x => exact absurd rfl (h x).1
  | bst x => exact absurd rfl (h x).2.1
  | bxc x => exact absurd rfl (h x).2.2.1
  | bdv x => exact absurd rfl (h x).2.2.2
  | jnz x => rw [effect_jnz]; rfl
  | _ => rfl

theorem effect_c_of_ne_cdv {i : Instr} (h : ∀ x, i ≠ .cdv x) (s : State) : (effect i s).c = s.c := by
  cases i with
  | cdv x => exact absurd rfl (h x)
  | jnz x => rw [effect_jnz]; rfl
  | _ => rfl

/-- An instruction emits its result `Output(v)`, or it is no `out`, continues and emits nothing. -/
theorem effect_output_cases (i : Instr) (s : State) :
    (∃ x v, i = .out x ∧ (effect i s).sres = some (.output v) ∧ (effect i s).out = s.out ++ [v]) ∨
    ((∀ x, i ≠ .out x) ∧ (effect i s).sres = some .continues ∧ (effect i s).out = s.out) := by
  cases i with
  | out x => exact .inl ⟨x, _, rfl, rfl, rfl⟩
  | jnz x => rw [effect_jnz]; exact .inr ⟨nofun, rfl, rfl⟩
  | _ => exact .inr ⟨nofun, rfl, rfl⟩

/-- The new pc is the next instruction's, or the operand of a `jnz` that fires (spec/40_step_cycle.md R98). -/
theorem effect_pc_cases (i : Instr) (s : State) :
    (effect i s).pc = s.pc + 2 ∨ ∃ x, i = .jnz x ∧ s.a ≠ 0 ∧ (effect i s).pc = x.toNat := by
  cases i with
  | jnz x =>
    rw [effect_jnz]
    by_cases ha : s.a = 0
    · exact .inl (by simp [ha])
    · exact .inr ⟨x, rfl, ha, by simp [ha, literal]⟩
  | _ => exact .inl rfl

/-! The widths of the registers (spec/10_state.md R24). -/

/-- A, B and C fit in `w` bits. -/
def RegsFit (w : Nat) (s : State) : Prop := s.a < 2 ^ w ∧ s.b < 2 ^ w ∧ s.c < 2 ^ w

theorem oct_toNat_lt_two_pow {w : Nat} (hw : 3 ≤ w) (x : Oct) : x.toNat < 2 ^ w :=
  x.isLt.trans_le (Nat.pow_le_pow_right (by omega) hw)

/-- In three bits or more, no instruction writes a value wider than the registers: a shift does not grow A, and the
operands of `xor` and a value mod 8 fit. -/
theorem effect_regsFit {w : Nat} (hw : 3 ≤ w) (i : Instr) {s : State} (h : RegsFit w s) :
    RegsFit w (effect i s) := by
  obtain ⟨ha, hb, hc⟩ := h
  have hshift (k : Nat) : shiftRight s.a k < 2 ^ w := (Nat.shiftRight_le s.a k).trans_lt ha
  cases i with
  | adv x => exact ⟨hshift _, hb, hc⟩
  | bxl x => exact ⟨ha, Nat.xor_lt_two_pow hb (oct_toNat_lt_two_pow hw x), hc⟩
  | bst x => exact ⟨ha, oct_toNat_lt_two_pow hw _, hc⟩
  | jnz x => rw [effect_jnz]; exact ⟨ha, hb, hc⟩
  | bxc x => exact ⟨ha, Nat.xor_lt_two_pow hb hc, hc⟩
  | out x => exact ⟨ha, hb, hc⟩
  | bdv x => exact ⟨ha, hshift _, hc⟩
  | cdv x => exact ⟨ha, hb, hshift _⟩

/-- The bit length is the least width that holds the value (spec/00_scope.md R10). -/
theorem bitlen_le_iff (v w : Nat) : bitlen v ≤ w ↔ v < 2 ^ w := by
  unfold bitlen
  split
  · simp [*]
  · rename_i hv
    rw [Nat.add_one_le_iff, Nat.log2_lt hv]

theorem regBits_le_iff (s : State) (w : Nat) : s.regBits ≤ w ↔ RegsFit w s ∧ 3 ≤ w := by
  simp only [State.regBits, RegsFit, max_le_iff, bitlen_le_iff]
  tauto

/-! The registers an instruction reads (spec/10_state.md R23). -/

/-- A combo operand reads at most the one register it names. -/
theorem combo_congr {x : Oct} {s u : State} (ha : x = 4 → s.a = u.a) (hb : x = 5 → s.b = u.b)
    (hc : x = 6 → s.c = u.c) : combo x s = combo x u := by
  simp only [combo]
  split
  case h_5 => rw [ha rfl]
  case h_6 => rw [hb rfl]
  case h_7 => rw [hc rfl]
  all_goals rfl

/-! The step of the core. -/

/-- A step that executes nothing: at most the latch and the step's result are written, and no output is returned. -/
def StoppedAs (s t : State) : Prop :=
  ∃ cause fpc fval r, (∀ v, r ≠ .output v) ∧
    t = { s with fcause := cause, fpc := fpc, fval := fval, sres := some r }

theorem stoppedAs_returns (s : State) {r : StepResult} (h : ∀ v, r ≠ .output v) : StoppedAs s (s.returns r) :=
  ⟨s.fcause, s.fpc, s.fval, r, h, rfl⟩

theorem stoppedAs_raise (s : State) (cause : FCause) (v : Byte) : StoppedAs s (s.raise cause v) :=
  ⟨cause, s.pc, v, .fault cause s.pc v, nofun, rfl⟩

/-- A core step executes the instruction it has fetched, or executes nothing. -/
theorem coreStep_executes_or_stops {s t : State} (h : coreStep s = .next t) :
    (∃ c0 c1 i, s.pc + 1 < s.len ∧ s.fetch = some (c0, c1) ∧ decode c0 c1 = .instr i ∧ t = effect i s) ∨
    StoppedAs s t := by
  rcases coreStep_cases h with ⟨-, rfl⟩ | ⟨-, -, rfl⟩ | ⟨-, -, rfl⟩ | ⟨-, hpc, c0, c1, hf, hd⟩
  · exact .inr (stoppedAs_returns s nofun)
  · exact .inr (stoppedAs_returns s nofun)
  · exact .inr (stoppedAs_raise s _ _)
  · rcases hd with ⟨i, hi, -, rfl⟩ | ⟨v, -, rfl⟩ | ⟨v, -, rfl⟩ | ⟨v, -, rfl⟩
    · exact .inl ⟨c0, c1, i, hpc, hf, hi, rfl⟩
    all_goals exact .inr (stoppedAs_raise s _ _)

theorem coreStep_sameSurroundings {s t : State} (h : coreStep s = .next t) : SameSurroundings s t := by
  rcases coreStep_executes_or_stops h with ⟨_, _, i, -, -, -, rfl⟩ | ⟨_, _, _, _, -, rfl⟩
  · exact effect_sameSurroundings i s
  · exact .refl s

theorem coreStep_pcInRange {s t : State} (hs : s.PcInRange) (h : coreStep s = .next t) : t.PcInRange := by
  have hlen := (coreStep_sameSurroundings h).len_eq
  rcases coreStep_executes_or_stops h with ⟨_, _, i, hpc, -, -, rfl⟩ | ⟨_, _, _, _, -, rfl⟩
  · rcases effect_pc_cases i s with h2 | ⟨x, -, -, hx⟩
    · simp only [State.PcInRange, ← hlen, h2]; omega
    · have := x.isLt
      simp only [State.PcInRange, hx]; omega
  · exact hs

theorem coreStep_regsFit {w : Nat} (hw : 3 ≤ w) {s t : State} (hs : RegsFit w s) (h : coreStep s = .next t) :
    RegsFit w t := by
  rcases coreStep_executes_or_stops h with ⟨_, _, i, -, -, -, rfl⟩ | ⟨_, _, _, _, -, rfl⟩
  · exact effect_regsFit hw i hs
  · exact hs

/-! The step of the core, case by case: the equations that `coreStep_cases` inverts. -/

theorem coreStep_of_faulted {s : State} (h : s.fcause ≠ .noFault) :
    coreStep s = .next (s.returns (.fault s.fcause s.fpc s.fval)) := by
  simp [coreStep, h]

theorem coreStep_of_halted {s : State} (h : s.fcause = .noFault) (hpc : s.len ≤ s.pc) :
    coreStep s = .next (s.returns .halt) := by
  simp [coreStep, h, hpc]

theorem coreStep_of_truncated {s : State} (h : s.fcause = .noFault) (hpc : s.pc + 1 = s.len) :
    coreStep s = .next (s.raise .fetchTruncated 0) := by
  simp [coreStep, h, ← hpc]

theorem coreStep_of_fetch {s : State} {c0 c1 : Byte} (h : s.fcause = .noFault) (hpc : s.pc + 1 < s.len)
    (hf : s.fetch = some (c0, c1)) : coreStep s = execDecoded (decode c0 c1) s := by
  simp [coreStep, h, hf, show ¬ s.len ≤ s.pc by omega, show ¬ s.len ≤ s.pc + 1 by omega]

end Sys2Proof.Machine
end

section
/-! PROOF. The core's step reads the core alone (spec/10_state.md R40, spec/20_memory.md R64): it commutes with giving
the core's state to a machine in other surroundings. -/

namespace Sys2Proof.Machine

theorem SameCore.refl (s : State) : SameCore s s :=
  ⟨rfl, rfl, rfl, rfl, rfl, rfl, rfl, rfl, rfl, rfl, rfl, rfl⟩

theorem SameCore.trans {s t u : State} (h : SameCore s t) (h' : SameCore t u) : SameCore s u := by
  simp only [SameCore] at h h' ⊢
  simp only [h, h', and_self]

/-- The machine `e` with the core's state of `s`. -/
def State.withCoreOf (e s : State) : State :=
  { e with
    a := s.a, b := s.b, c := s.c, pc := s.pc
    fcause := s.fcause, fpc := s.fpc, fval := s.fval
    launched := s.launched, prog := s.prog, len := s.len, out := s.out, sres := s.sres }

theorem sameCore_withCoreOf (e s : State) : SameCore s (e.withCoreOf s) := .refl s

theorem withCoreOf_eq_of_sameCore {s u : State} (h : SameCore s u) : u.withCoreOf s = u := by
  obtain ⟨ha, hb, hc, hpc, hk, hp, hv, hl, hm, hn, ho, hr⟩ := h
  simp only [State.withCoreOf, ha, hb, hc, hpc, hk, hp, hv, hl, hm, hn, ho, hr]

theorem effect_withCoreOf (i : Instr) (e s : State) :
    effect i (e.withCoreOf s) = e.withCoreOf (effect i s) := by
  cases i with
  | jnz x => rw [effect_jnz, effect_jnz]; rfl
  | _ => rfl

theorem coreStep_withCoreOf (e : State) {s t : State} (h : coreStep s = .next t) :
    coreStep (e.withCoreOf s) = .next (e.withCoreOf t) := by
  rcases coreStep_cases h with ⟨hk, rfl⟩ | ⟨hk, hpc, rfl⟩ | ⟨hk, hpc, rfl⟩ | ⟨hk, hpc, c0, c1, hf, hd⟩
  · exact coreStep_of_faulted (s := e.withCoreOf s) hk
  · exact coreStep_of_halted (s := e.withCoreOf s) hk hpc
  · exact coreStep_of_truncated (s := e.withCoreOf s) hk hpc
  · rw [coreStep_of_fetch (s := e.withCoreOf s) hk hpc hf]
    rcases hd with ⟨i, hi, hw, rfl⟩ | ⟨v, hv, rfl⟩ | ⟨v, hv, rfl⟩ | ⟨v, hv, rfl⟩
    · rw [hi, ← effect_withCoreOf]
      exact exec_of_wellFormed hw _
    all_goals rw [hv]; rfl

theorem coreSteps_withCoreOf (n : Nat) (e : State) {s t : State} (h : coreSteps n s = .next t) :
    coreSteps n (e.withCoreOf s) = .next (e.withCoreOf t) := by
  induction n generalizing s with
  | zero => cases h; rfl
  | succ n ih =>
    obtain ⟨u, hu, ht⟩ := andThen_eq_next.mp h
    exact andThen_eq_next.mpr ⟨_, coreStep_withCoreOf e hu, ih ht⟩

theorem coreSteps_sameSurroundings (n : Nat) {s t : State} (h : coreSteps n s = .next t) :
    SameSurroundings s t := by
  induction n generalizing s with
  | zero => cases h; exact .refl _
  | succ n ih =>
    obtain ⟨u, hu, ht⟩ := andThen_eq_next.mp h
    exact (coreStep_sameSurroundings hu).trans (ih ht)

/-- One step from either of two states with the same core leaves the same core. -/
theorem coreStep_of_sameCore {s u t : State} (h : SameCore s u) (hs : coreStep s = .next t) :
    ∃ v, coreStep u = .next v ∧ SameCore t v := by
  have hu := coreStep_withCoreOf u hs
  rw [withCoreOf_eq_of_sameCore h] at hu
  exact ⟨_, hu, sameCore_withCoreOf u t⟩

/-- Settles O30: the run commutes with exchanging the surroundings, and keeps them. -/
theorem coreStepDependsOnTheCoreAlone : Obligations.CoreStepDependsOnTheCoreAlone := by
  intro n s u t h hs
  have hu := coreSteps_withCoreOf n u hs
  rw [withCoreOf_eq_of_sameCore h] at hu
  exact ⟨_, hu, sameCore_withCoreOf u t, coreSteps_sameSurroundings n hs, coreSteps_sameSurroundings n hu⟩

end Sys2Proof.Machine
end

section
/-! PROOF. What a step of the whole machine does to the core's state, whatever the command
(spec/45_run_commands.md R150): nothing, one core step, a new run of the loaded program, or a launch. -/

namespace Sys2Proof.Machine

/-- The core's state and the build's parameters agree. -/
def SameCoreAndBuild (s u : State) : Prop := SameCore s u ∧ s.build = u.build

theorem SameCoreAndBuild.refl (s : State) : SameCoreAndBuild s s := ⟨.refl s, rfl⟩

/-- How a step of the machine moves the core from `s` to `t`. -/
inductive CoreMove (s t : State) : Prop where
  | kept (h : SameCoreAndBuild t s)
  | stepped (u : State) (hu : coreStep s = .next u) (h : SameCoreAndBuild t u)
  | restarted (a b c : Nat) (accepted : launchRefusal s.build s.len a b c = none)
      (h : SameCoreAndBuild t (s.startRun a b c))
  | launched (p : List Byte) (a b c : Nat) (accepted : launchRefusal s.build p.length a b c = none)
      (h : SameCoreAndBuild t (s.launch p a b c))

theorem judgeRun_sameCoreAndBuild (u : State) : SameCoreAndBuild (judgeRun u) u := by
  rcases judgeRun_cases u with h | ⟨r, h⟩ <;> rw [h] <;> exact .refl u

theorem judgeFirst_sameCoreAndBuild (u : State) : SameCoreAndBuild (judgeFirst u) u := by
  rcases judgeFirst_cases u with h | ⟨r, h⟩ <;> rw [h] <;> exact .refl u

theorem afterTrial_sameCoreAndBuild (t : Byte) (todo next : List Nat) (u : State) :
    SameCoreAndBuild (afterTrial t todo next u) u := by
  rcases afterTrial_cases t todo next u with h | h <;> rw [h] <;> exact .refl u

theorem judgeTrial_sameCoreAndBuild (t : Byte) (p' : Nat) (todo next : List Nat) (u : State) :
    SameCoreAndBuild (judgeTrial t p' todo next u) u := by
  unfold judgeTrial
  split
  · exact .refl u
  · exact afterTrial_sameCoreAndBuild t todo _ u
  · exact afterTrial_sameCoreAndBuild t todo next { u with shape := true }
  · exact .refl u

theorem endRound_sameCoreAndBuild (s : State) (next : List Nat) : SameCoreAndBuild (endRound s next) s := by
  simp only [endRound]
  split <;> exact .refl s

theorem judgeVerify_sameCoreAndBuild {u t : State} (h : judgeVerify u = .next t) : SameCoreAndBuild t u := by
  rcases judgeVerify_cases h with ⟨-, rfl⟩ | ⟨_, _, -, -, -, -, rfl⟩ | ⟨_, _, -, -, -, -, rfl⟩ | ⟨_, -, -, rfl⟩ |
    ⟨_, -, -, -, rfl⟩ | ⟨-, -, rfl⟩ | ⟨_, _, _, -, rfl⟩
  · exact .refl _
  all_goals exact .refl u

theorem advance_coreMove {s t : State} (h : advance s = .next t) : CoreMove s t := by
  rcases advance_cases h with ⟨-, rfl⟩ | ⟨-, u, hu, rfl⟩ | ⟨-, u, hu, rfl⟩ | ⟨-, -, e, -, rfl⟩ | ⟨-, -, rfl⟩ |
    ⟨e, next, -, rfl⟩ | ⟨e, p', todo, next, -, ⟨why, -, rfl⟩ | ⟨hr, rfl⟩⟩ | ⟨e, p', todo, next, -, u, hu, rfl⟩ |
    ⟨-, u, hu, ht⟩
  · exact .kept (.refl _)
  · exact .stepped u hu (judgeRun_sameCoreAndBuild u)
  · exact .stepped u hu (judgeFirst_sameCoreAndBuild u)
  · exact .kept (.refl s)
  · exact .kept (.refl s)
  · exact .kept (endRound_sameCoreAndBuild s next)
  · exact .kept (.refl s)
  · exact .restarted p' 0 0 hr (.refl _)
  · exact .stepped u hu (judgeTrial_sameCoreAndBuild e p' todo next u)
  · exact .stepped u hu (judgeVerify_sameCoreAndBuild ht)

theorem accept_coreMove {cmd : Command} {s t : State} (h : accept cmd s = .next t) : CoreMove s t := by
  rcases accept_cases h with ⟨why, rfl⟩ | ⟨-, -, u, hu, rfl⟩ | ⟨p, a, b, c, hr, ht⟩ | ⟨p, hr, rfl⟩
  · exact .kept (.refl s)
  · exact .stepped u hu (.refl u)
  · refine .launched p a b c hr ?_
    rcases ht with rfl | rfl | rfl | rfl <;> exact .refl (s.launch p a b c)
  · exact .launched p 0 0 0 hr (.refl (s.launch p 0 0 0))

/-- Taking the host's action from the inbox is invisible to the core. -/
theorem CoreMove.of_popped {s t : State} (h : CoreMove (popped s) t) : CoreMove s t := by
  cases h with
  | kept h => exact .kept h
  | stepped u hu h =>
    obtain ⟨v, hv, huv⟩ := coreStep_of_sameCore (s := popped s) (u := s) (.refl s) hu
    have hb : u.build = v.build :=
      (coreStep_sameSurroundings hu).build_eq.symm.trans (coreStep_sameSurroundings hv).build_eq
    exact .stepped v hv ⟨h.1.trans huv, h.2.trans hb⟩
  | restarted a b c hr h => exact .restarted a b c hr h
  | launched p a b c hr h => exact .launched p a b c hr h

theorem step_coreMove {s t : State} (h : step s = .next t) : CoreMove s t := by
  refine .of_popped ?_
  rcases step_cases h with h | ⟨-, cmd, h, -⟩ | ⟨-, rfl⟩
  · exact advance_coreMove h
  · exact accept_coreMove h
  · exact .kept (.refl _)

theorem CoreMove.build_eq {s t : State} (h : CoreMove s t) : t.build = s.build := by
  cases h with
  | kept h => exact h.2
  | stepped u hu h => exact h.2.trans (coreStep_sameSurroundings hu).build_eq.symm
  | restarted a b c hr h => exact h.2
  | launched p a b c hr h => exact h.2

/-! The pc's range. -/

theorem SameCore.pcInRange {s u : State} (h : SameCore s u) (hu : u.PcInRange) : s.PcInRange := by
  obtain ⟨-, -, -, hpc, -, -, -, -, -, hlen, -, -⟩ := h
  simpa only [State.PcInRange, hpc, hlen] using hu

/-- Settles O40: a step of the core keeps the range, and every other move sets the pc to 0 or keeps it. -/
theorem stepKeepsPcInRange : Obligations.StepKeepsPcInRange := by
  intro s t hs h
  have ht : t.PcInRange := by
    cases step_coreMove h with
    | kept h => exact h.1.pcInRange hs
    | stepped u hu h => exact h.1.pcInRange (coreStep_pcInRange hs hu)
    | restarted a b c hr h => exact h.1.pcInRange (Nat.zero_le _)
    | launched p a b c hr h => exact h.1.pcInRange (Nat.zero_le _)
  exact ⟨ht, fun _ hw => lt_of_le_of_lt ht hw⟩

/-! The build's widths. -/

theorem fitsWidth_iff (v : Nat) (width : Option Nat) :
    fitsWidth v width = true ↔ ∀ w, width = some w → v < 2 ^ w := by
  cases width <;> simp [fitsWidth]

theorem fitsWidth_eq_false_iff (v : Nat) (width : Option Nat) :
    fitsWidth v width = false ↔ ∃ w, width = some w ∧ 2 ^ w ≤ v := by
  cases width <;> simp [fitsWidth]

theorem withinCap_eq_false_iff (n : Nat) (cap : Option Nat) :
    withinCap n cap = false ↔ ∃ m, cap = some m ∧ m < n := by
  cases cap <;> simp [withinCap]

/-- The registers' check of a launch. -/
def registersFit (bld : Config.Build) (a b c : Nat) : Bool :=
  fitsWidth a bld.regw && fitsWidth b bld.regw && fitsWidth c bld.regw

/-- The program's check of a launch. -/
def programFits (bld : Config.Build) (n : Nat) : Bool :=
  withinCap n bld.maxlen && fitsWidth (max n 7) bld.pcw

/-- A launch makes the registers' check first, then the program's. -/
theorem launchRefusal_eq (bld : Config.Build) (n a b c : Nat) :
    launchRefusal bld n a b c =
      if !registersFit bld a b c then some .tooWide else if !programFits bld n then some .tooLong else none := rfl

theorem launchRefusal_eq_none_iff (bld : Config.Build) (n a b c : Nat) :
    launchRefusal bld n a b c = none ↔
      fitsWidth a bld.regw = true ∧ fitsWidth b bld.regw = true ∧ fitsWidth c bld.regw = true ∧
      fitsWidth (max n 7) bld.pcw = true ∧ withinCap n bld.maxlen = true := by
  have h : launchRefusal bld n a b c = none ↔ registersFit bld a b c = true ∧ programFits bld n = true := by
    rw [launchRefusal_eq]
    cases registersFit bld a b c <;> cases programFits bld n <;> simp
  simp only [h, registersFit, programFits, Bool.and_eq_true, and_assoc, and_comm (a := withinCap _ _ = true)]

theorem registersFit_eq_false_iff (bld : Config.Build) (a b c : Nat) :
    registersFit bld a b c = false ↔ ∃ w, bld.regw = some w ∧ (2 ^ w ≤ a ∨ 2 ^ w ≤ b ∨ 2 ^ w ≤ c) := by
  simp only [registersFit, Bool.and_eq_false_iff, fitsWidth_eq_false_iff, ← exists_or, ← and_or_left, or_assoc]

theorem programFits_eq_false_iff (bld : Config.Build) (n : Nat) :
    programFits bld n = false ↔
      (∃ m, bld.maxlen = some m ∧ m < n) ∨ ∃ w, bld.pcw = some w ∧ 2 ^ w ≤ max n 7 := by
  rw [programFits, Bool.and_eq_false_iff, withinCap_eq_false_iff, fitsWidth_eq_false_iff]

theorem regs_fitWidth_iff (s : State) (width : Option Nat) :
    (fitsWidth s.a width = true ∧ fitsWidth s.b width = true ∧ fitsWidth s.c width = true) ↔
      ∀ w, width = some w → RegsFit w s := by
  simp only [fitsWidth_iff, RegsFit]
  exact ⟨fun ⟨ha, hb, hc⟩ w hw => ⟨ha w hw, hb w hw, hc w hw⟩,
    fun h => ⟨fun w hw => (h w hw).1, fun w hw => (h w hw).2.1, fun w hw => (h w hw).2.2⟩⟩

theorem SameCoreAndBuild.fitsBuild {s u : State} (h : SameCoreAndBuild s u) (hu : u.FitsBuild) : s.FitsBuild := by
  obtain ⟨⟨ha, hb, hc, -, -, -, -, hl, -, hlen, -, -⟩, hbld⟩ := h
  simpa only [State.FitsBuild, ha, hb, hc, hl, hlen, hbld] using hu

/-- A step of the core keeps the registers within the width and touches no program (spec/10_state.md R24). -/
theorem coreStep_fitsBuild {s t : State} (hw : ∀ w, s.build.regw = some w → 3 ≤ w) (hs : s.FitsBuild)
    (h : coreStep s = .next t) : t.FitsBuild := by
  intro htl
  have hsur := coreStep_sameSurroundings h
  obtain ⟨ha, hb, hc, hprog⟩ := hs (hsur.launched_eq.trans htl)
  have hregs := (regs_fitWidth_iff s s.build.regw).mp ⟨ha, hb, hc⟩
  obtain ⟨ha', hb', hc'⟩ := (regs_fitWidth_iff t s.build.regw).mpr
    fun w hbw => coreStep_regsFit (hw w hbw) (hregs w hbw) h
  rw [← hsur.build_eq, ← hsur.len_eq]
  exact ⟨ha', hb', hc', hprog⟩

/-- Settles O42: a step of the core keeps the widths, and every accepted start of a run has checked them. -/
theorem stepKeepsTheBuildsWidths : Obligations.StepKeepsTheBuildsWidths := by
  intro s t hw hs _ h
  have hmove := step_coreMove h
  refine ⟨?_, hmove.build_eq⟩
  cases hmove with
  | kept h => exact h.fitsBuild hs
  | stepped u hu h => exact h.fitsBuild (coreStep_fitsBuild hw hs hu)
  | restarted a b c hr h => exact h.fitsBuild fun _ => (launchRefusal_eq_none_iff _ _ _ _ _).mp hr
  | launched p a b c hr h => exact h.fitsBuild fun _ => (launchRefusal_eq_none_iff _ _ _ _ _).mp hr

/-- Settles O35, reading the two checks of a launch one after the other. -/
theorem whenALaunchIsRefused : Obligations.WhenALaunchIsRefused := by
  intro bld n a b c
  rw [← registersFit_eq_false_iff, ← programFits_eq_false_iff, launchRefusal_eq]
  cases hregs : registersFit bld a b c with
  | false => simp
  | true => cases hprog : programFits bld n <;> simp

end Sys2Proof.Machine
end

section
/-! PROOF. The statements about one instruction and one step of the core (spec/10_state.md R23, R24, R29, R36). -/

namespace Sys2Proof.Machine

/-- Settles O16, from the frame of `effect`. -/
theorem instructionWritesOnlyItsDestination : Obligations.InstructionWritesOnlyItsDestination := by
  intro i s t hw h
  cases (exec_of_wellFormed hw s).symm.trans h
  obtain ⟨hcause, hfpc, hfval⟩ := effect_keeps_latch i s
  have hsur := effect_sameSurroundings i s
  refine ⟨fun ha => effect_a_of_ne_adv ha s, fun hb => effect_b_of_no_write hb s,
    fun hc => effect_c_of_ne_cdv hc s, fun ho => ?_, hcause, hfpc, hfval, hsur, fun k => by rw [← hsur.prog_eq]⟩
  rcases effect_output_cases i s with ⟨x, _, hx, -, -⟩ | ⟨-, -, hout⟩
  · exact absurd hx (ho x)
  · exact hout

theorem AgreeOnReads.combo_eq {i : Instr} {x : Oct} {s u : State} (h : AgreeOnReads i s u)
    (hi : i = .adv x ∨ i = .bst x ∨ i = .out x ∨ i = .bdv x ∨ i = .cdv x) : combo x s = combo x u := by
  obtain ⟨ha, hb, hc⟩ := h
  refine combo_congr (fun hx => ha ?_) (fun hx => hb ?_) (fun hx => hc ?_) <;> subst hx <;>
    rcases hi with rfl | rfl | rfl | rfl | rfl <;> rfl

/-- From two states that agree on what an instruction reads, it gives the same pc, result and value. -/
theorem effect_agree {i : Instr} {s u : State} (h : AgreeOnReads i s u) (hpc : s.pc = u.pc) :
    (effect i s).pc = (effect i u).pc ∧ (effect i s).sres = (effect i u).sres ∧
    ((∃ x, i = .adv x) → (effect i s).a = (effect i u).a) ∧
    ((∃ x, i = .bxl x ∨ i = .bst x ∨ i = .bxc x ∨ i = .bdv x) → (effect i s).b = (effect i u).b) ∧
    ((∃ x, i = .cdv x) → (effect i s).c = (effect i u).c) ∧
    (s.out = u.out → (effect i s).out = (effect i u).out) := by
  have ⟨ha, hb, hc⟩ := h
  cases i with
  | adv x => simp [effect, hpc, ha rfl, h.combo_eq (x := x) (by simp)]
  | bxl x => simp [effect, hpc, hb rfl]
  | bst x => simp [effect, hpc, h.combo_eq (x := x) (by simp)]
  | jnz x => simp [effect_jnz, hpc, ha rfl]
  | bxc x => simp [effect, hpc, hb rfl, hc rfl]
  | out x => simp +contextual [effect, hpc, h.combo_eq (x := x) (by simp)]
  | bdv x => simp [effect, hpc, ha rfl, h.combo_eq (x := x) (by simp)]
  | cdv x => simp [effect, hpc, ha rfl, h.combo_eq (x := x) (by simp)]

/-- Settles O17, from the agreement of the two effects. -/
theorem instructionReadsOnlyItsRegisters : Obligations.InstructionReadsOnlyItsRegisters := by
  intro i s u t v hw hag hpc hs hu
  cases (exec_of_wellFormed hw s).symm.trans hs
  cases (exec_of_wellFormed hw u).symm.trans hu
  exact effect_agree hag hpc

/-- Settles O20: what fits the widest register before fits it after. -/
theorem registerBitsNeverGrow : Obligations.RegisterBitsNeverGrow := by
  intro i s t hw h
  cases (exec_of_wellFormed hw s).symm.trans h
  obtain ⟨hfit, h3⟩ := (regBits_le_iff s s.regBits).mp le_rfl
  exact (regBits_le_iff _ _).mpr ⟨effect_regsFit h3 i hfit, h3⟩

/-- Settles O26: a step that executes nothing returns no output. -/
theorem outputIsAppendOnly : Obligations.OutputIsAppendOnly := by
  intro s t h
  rcases coreStep_executes_or_stops h with ⟨_, _, i, -, -, -, rfl⟩ | ⟨_, _, _, r, hr, rfl⟩
  · rcases effect_output_cases i s with ⟨_, v, -, hres, hout⟩ | ⟨-, hres, hout⟩
    · exact .inl ⟨v, hres, hout⟩
    · exact .inr ⟨by simp [hres], hout⟩
  · exact .inr ⟨fun v hv => hr v (Option.some.inj hv), rfl⟩

/-- Settles O27: the pc moves by 2, or to the operand of a `jnz` that fires, or not at all. -/
theorem evenPcStaysEven : Obligations.EvenPcStaysEven := by
  intro s t heven h hjnz
  rcases coreStep_executes_or_stops h with ⟨c0, c1, i, -, hf, hd, rfl⟩ | ⟨_, _, _, _, -, rfl⟩
  · rcases effect_pc_cases i s with h2 | ⟨x, rfl, ha, hx⟩
    · omega
    · rw [hx]
      exact hjnz c0 c1 x hf hd ha
  · exact heven

end Sys2Proof.Machine
end

section
/-! PROOF. The engines' own state (spec/10_state.md R37 to R39): only a search writes CAND, ROUND, SHAPE and SEED, only
a verify VPOS and VRES. -/

namespace Sys2Proof.Machine

/-- The search's state agrees. -/
def SameSearch (t s : State) : Prop := t.cand = s.cand ∧ t.round = s.round ∧ t.shape = s.shape ∧ t.seed = s.seed

/-- The verifier's state agrees. -/
def SameVerifier (t s : State) : Prop := t.vpos = s.vpos ∧ t.vres = s.vres

theorem SameSearch.refl (s : State) : SameSearch s s := ⟨rfl, rfl, rfl, rfl⟩

theorem SameVerifier.refl (s : State) : SameVerifier s s := ⟨rfl, rfl⟩

theorem SameSearch.trans {t u s : State} (h : SameSearch t u) (h' : SameSearch u s) : SameSearch t s := by
  simp only [SameSearch] at h h' ⊢
  simp only [h, h', and_self]

theorem SameVerifier.trans {t u s : State} (h : SameVerifier t u) (h' : SameVerifier u s) : SameVerifier t s :=
  ⟨h.1.trans h'.1, h.2.trans h'.2⟩

theorem coreStep_sameSearch {s u : State} (h : coreStep s = .next u) : SameSearch u s := by
  obtain ⟨-, -, -, hcand, hround, hshape, hseed, -⟩ := coreStep_sameSurroundings h
  exact ⟨hcand.symm, hround.symm, hshape.symm, hseed.symm⟩

theorem coreStep_sameVerifier {s u : State} (h : coreStep s = .next u) : SameVerifier u s := by
  obtain ⟨-, -, -, -, -, -, -, hvpos, hvres, -⟩ := coreStep_sameSurroundings h
  exact ⟨hvpos.symm, hvres.symm⟩

theorem judgeRun_sameEngines (u : State) : SameSearch (judgeRun u) u ∧ SameVerifier (judgeRun u) u := by
  rcases judgeRun_cases u with h | ⟨r, h⟩ <;> rw [h] <;> exact ⟨.refl u, .refl u⟩

theorem judgeFirst_sameEngines (u : State) : SameSearch (judgeFirst u) u ∧ SameVerifier (judgeFirst u) u := by
  rcases judgeFirst_cases u with h | ⟨r, h⟩ <;> rw [h] <;> exact ⟨.refl u, .refl u⟩

theorem afterTrial_sameVerifier (t : Byte) (todo next : List Nat) (u : State) :
    SameVerifier (afterTrial t todo next u) u := by
  rcases afterTrial_cases t todo next u with h | h <;> rw [h] <;> exact .refl u

theorem judgeTrial_sameVerifier (t : Byte) (p' : Nat) (todo next : List Nat) (u : State) :
    SameVerifier (judgeTrial t p' todo next u) u := by
  unfold judgeTrial
  split
  · exact .refl u
  · exact afterTrial_sameVerifier t todo _ u
  · exact afterTrial_sameVerifier t todo next { u with shape := true }
  · exact .refl u

theorem endRound_sameVerifier (s : State) (next : List Nat) : SameVerifier (endRound s next) s := by
  simp only [endRound]
  split <;> exact .refl s

theorem judgeVerify_sameSearch {u t : State} (h : judgeVerify u = .next t) : SameSearch t u := by
  rcases judgeVerify_cases h with ⟨-, rfl⟩ | ⟨_, _, -, -, -, -, rfl⟩ | ⟨_, _, -, -, -, -, rfl⟩ | ⟨_, -, -, rfl⟩ |
    ⟨_, -, -, -, rfl⟩ | ⟨-, -, rfl⟩ | ⟨_, _, _, -, rfl⟩
  · exact .refl _
  all_goals exact .refl u

theorem advance_sameSearch {s t : State} (ha : s.activity ∈ [.idle, .run, .firstOutput, .verify])
    (h : advance s = .next t) : SameSearch t s := by
  rcases advance_cases h with ⟨-, rfl⟩ | ⟨-, u, hu, rfl⟩ | ⟨-, u, hu, rfl⟩ | ⟨hact, -⟩ | ⟨hact, -⟩ |
    ⟨_, _, hact, -⟩ | ⟨_, _, _, _, hact, -⟩ | ⟨_, _, _, _, hact, -⟩ | ⟨-, u, hu, ht⟩
  · exact .refl _
  · exact (judgeRun_sameEngines u).1.trans (coreStep_sameSearch hu)
  · exact (judgeFirst_sameEngines u).1.trans (coreStep_sameSearch hu)
  · simp [hact] at ha
  · simp [hact] at ha
  · simp [hact] at ha
  · simp [hact] at ha
  · simp [hact] at ha
  · exact (judgeVerify_sameSearch ht).trans (coreStep_sameSearch hu)

theorem advance_sameVerifier {s t : State} (ha : s.activity ≠ .verify) (h : advance s = .next t) :
    SameVerifier t s := by
  rcases advance_cases h with ⟨-, rfl⟩ | ⟨-, u, hu, rfl⟩ | ⟨-, u, hu, rfl⟩ | ⟨-, -, e, -, rfl⟩ | ⟨-, -, rfl⟩ |
    ⟨e, next, -, rfl⟩ | ⟨e, p', todo, next, -, ⟨why, -, rfl⟩ | ⟨-, rfl⟩⟩ | ⟨e, p', todo, next, -, u, hu, rfl⟩ |
    ⟨hact, -⟩
  · exact .refl _
  · exact (judgeRun_sameEngines u).2.trans (coreStep_sameVerifier hu)
  · exact (judgeFirst_sameEngines u).2.trans (coreStep_sameVerifier hu)
  · exact .refl s
  · exact .refl s
  · exact endRound_sameVerifier s next
  · exact .refl s
  · exact .refl s
  · exact (judgeTrial_sameVerifier e p' todo next u).trans (coreStep_sameVerifier hu)
  · exact absurd hact ha

theorem stepCommand_sameEngines {s t : State} (h : stepCommand s = .next t) :
    SameSearch t s ∧ SameVerifier t s := by
  unfold stepCommand at h
  split at h
  · cases h; exact ⟨.refl s, .refl s⟩
  · obtain ⟨u, hu, ht⟩ := andThen_eq_next.mp h
    cases ht
    exact ⟨(coreStep_sameSearch hu : SameSearch u s), (coreStep_sameVerifier hu : SameVerifier u s)⟩

/-- What holds after every refusal and after the start holds after a command that may be refused. -/
theorem startWith_induction {P : State → Prop} {refusal : Option RefuseReason} {s u t : State}
    (h : startWith refusal s u = .next t) (hrefused : ∀ why, P (s.refuse why)) (hstarted : P u) : P t := by
  rcases startWith_cases h with ⟨why, -, rfl⟩ | ⟨-, rfl⟩
  · exact hrefused why
  · exact hstarted

theorem accept_sameSearch {cmd : Command} {s t : State} (hcmd : ∀ p, cmd ≠ .findMinimalSeed p)
    (h : accept cmd s = .next t) : SameSearch t s := by
  cases cmd with
  | step => exact (stepCommand_sameEngines h).1
  | findMinimalSeed p => exact absurd rfl (hcmd p)
  | _ => exact startWith_induction (P := (SameSearch · s)) h (fun _ => .refl s) (.refl s)

theorem accept_sameVerifier {cmd : Command} {s t : State} (hcmd : ∀ p a b c, cmd ≠ .verify p a b c)
    (h : accept cmd s = .next t) : SameVerifier t s := by
  cases cmd with
  | step => exact (stepCommand_sameEngines h).2
  | verify p a b c => exact absurd rfl (hcmd p a b c)
  | _ => exact startWith_induction (P := (SameVerifier · s)) h (fun _ => .refl s) (.refl s)

/-- Settles O43, over the three things a step of the machine can do. -/
theorem eachEngineWritesOnlyItsOwnState : Obligations.EachEngineWritesOnlyItsOwnState := by
  intro s t h
  suffices hboth : (s.activity ∈ [.idle, .run, .firstOutput, .verify] →
        (∀ p rest, s.inbox ≠ .issue (.findMinimalSeed p) :: rest) → SameSearch t (popped s)) ∧
      (s.activity ≠ .verify → (∀ p a b c rest, s.inbox ≠ .issue (.verify p a b c) :: rest) →
        SameVerifier t (popped s)) from hboth
  rcases step_cases h with h | ⟨-, cmd, h, hcmd⟩ | ⟨-, rfl⟩
  · exact ⟨fun ha _ => advance_sameSearch ha h, fun ha _ => advance_sameVerifier ha h⟩
  · refine ⟨fun _ hin => accept_sameSearch ?_ h, fun _ hin => accept_sameVerifier ?_ h⟩
    · rintro p rfl
      rcases hcmd with ⟨-, hstep⟩ | ⟨rest, hrest⟩
      · cases hstep
      · exact hin p rest hrest
    · rintro p a b c rfl
      rcases hcmd with ⟨-, hstep⟩ | ⟨rest, hrest⟩
      · cases hstep
      · exact hin p a b c rest hrest
  · exact ⟨fun _ _ => .refl (popped s), fun _ _ => .refl (popped s)⟩

end Sys2Proof.Machine
end

section
/-! PROOF. The launch and the state before it (spec/10_state.md R42, R44; spec/70_reset_and_hazards.md R260 to R263). -/

namespace Sys2Proof.Machine

/-- After a launch PROG is the program, cell by cell, and nothing past it. -/
theorem cell_launch (s : State) (program : List Byte) (a b c i : Nat) :
    (s.launch program a b c).cell i = program[i]? := by
  simp only [State.cell, State.launch, State.startRun_len, State.loadProgram_len, State.startRun_prog,
    State.loadProgram_prog, Memory.read_load]
  split
  · rfl
  · rw [List.getElem?_eq_none (by omega)]

theorem status_launch (s : State) (program : List Byte) (a b c : Nat) :
    (s.launch program a b c).status = if program.length = 0 then .halt else .run := by
  simp [State.status, State.launch]

/-- Settles O31, command by command. -/
theorem launchSetsTheCore : Obligations.LaunchSetsTheCore := by
  intro s program a b c
  refine ⟨fun hr => ⟨{ s.launch program a b c with answer := .noResult }, ?_, ?_⟩,
    fun hr => ⟨s.startSearch program, ?_, ?_⟩, fun hr => ⟨s.startVerify program a b c, ?_, ?_⟩⟩
  · simp only [accept, hr, startWith]
  · exact ⟨rfl, rfl, rfl, rfl, rfl, rfl, rfl, rfl, rfl, rfl, cell_launch s program a b c,
      status_launch s program a b c, rfl, rfl, rfl, rfl, rfl, rfl⟩
  · simp only [accept, hr, startWith]
  · exact ⟨rfl, cell_launch s program 0 0 0, rfl, rfl, rfl, rfl, rfl, rfl⟩
  · simp only [accept, hr, startWith]
  · exact ⟨.refl (s.launch program a b c), rfl, rfl, rfl, rfl, rfl, rfl⟩

/-- Settles O32: a launch writes every field of the core. -/
theorem launchForgetsTheEarlierCore : Obligations.LaunchForgetsTheEarlierCore := by
  intro s u
  refine ⟨fun program a b c => .refl (s.launch program a b c), fun hidle hl => ?_, fun hbusy => ?_⟩
  · simp [State.hostReading, hidle, hl]
  · simp [State.hostReading, hbusy]

/-- Settles O37: nothing is launched, in progress or stored. -/
theorem invariantsHoldAtReset : Obligations.InvariantsHoldAtReset := by
  rintro inbox build s rfl
  have hsearch : ({ State.reset with inbox := inbox, build := build } : State).SearchOrdered :=
    { ascending := .nil
      bounded := nofun
      seedLeast := nofun
      atLoop := trivial }
  exact ⟨rfl, rfl, Nat.zero_le _, ⟨rfl, rfl⟩, fun h => absurd rfl h, nofun, hsearch, trivial, nofun, rfl, rfl, rfl⟩

end Sys2Proof.Machine
end

section
/-! PROOF. The program memory: only a launch writes PROG and LEN, so a loaded program stays loaded, and every cell that a
step reads is there (spec/20_memory.md R50, R51, R53, R54, R62). -/

namespace Sys2Proof.Machine

/-! Who leaves the program alone. -/

/-- PROG and LEN agree. -/
def SameProgram (t s : State) : Prop := t.prog = s.prog ∧ t.len = s.len

theorem SameProgram.refl (s : State) : SameProgram s s := ⟨rfl, rfl⟩

theorem SameProgram.trans {t u s : State} (h : SameProgram t u) (h' : SameProgram u s) : SameProgram t s :=
  ⟨h.1.trans h'.1, h.2.trans h'.2⟩

theorem SameCoreAndBuild.sameProgram {t s : State} (h : SameCoreAndBuild t s) : SameProgram t s := by
  obtain ⟨⟨-, -, -, -, -, -, -, -, hprog, hlen, -, -⟩, -⟩ := h
  exact ⟨hprog, hlen⟩

theorem coreStep_sameProgram {s u : State} (h : coreStep s = .next u) : SameProgram u s :=
  ⟨(coreStep_sameSurroundings h).prog_eq.symm, (coreStep_sameSurroundings h).len_eq.symm⟩

theorem stepCommand_sameProgram {s t : State} (h : stepCommand s = .next t) : SameProgram t s := by
  unfold stepCommand at h
  split at h
  · cases h; exact .refl s
  · obtain ⟨u, hu, ht⟩ := andThen_eq_next.mp h
    cases ht
    exact (coreStep_sameProgram hu : SameProgram u s)

/-- Carrying on a command launches no program: a trial's run starts on the one already loaded. -/
theorem advance_sameProgram {s t : State} (h : advance s = .next t) : SameProgram t s := by
  rcases advance_cases h with ⟨-, rfl⟩ | ⟨-, u, hu, rfl⟩ | ⟨-, u, hu, rfl⟩ | ⟨-, -, e, -, rfl⟩ | ⟨-, -, rfl⟩ |
    ⟨e, next, -, rfl⟩ | ⟨e, p', todo, next, -, ⟨why, -, rfl⟩ | ⟨-, rfl⟩⟩ | ⟨e, p', todo, next, -, u, hu, rfl⟩ |
    ⟨-, u, hu, ht⟩
  · exact .refl _
  · exact (judgeRun_sameCoreAndBuild u).sameProgram.trans (coreStep_sameProgram hu)
  · exact (judgeFirst_sameCoreAndBuild u).sameProgram.trans (coreStep_sameProgram hu)
  · exact .refl s
  · exact .refl s
  · exact (endRound_sameCoreAndBuild s next).sameProgram
  · exact .refl s
  · exact .refl s
  · exact (judgeTrial_sameCoreAndBuild e p' todo next u).sameProgram.trans (coreStep_sameProgram hu)
  · exact (judgeVerify_sameCoreAndBuild ht).sameProgram.trans (coreStep_sameProgram hu)

/-- Settles O36: of the three things a step of the machine can do, only a command taken writes the program, and `step`
does not. -/
theorem programIsImmutableDuringACommand : Obligations.ProgramIsImmutableDuringACommand := by
  intro s t h hquiet
  suffices hsame : SameProgram t (popped s) from hsame
  rcases step_cases h with h | ⟨hidle, cmd, h, hcmd⟩ | ⟨-, rfl⟩
  · exact advance_sameProgram h
  · have hstep : cmd = .step := by
      rcases hcmd with ⟨-, hstep⟩ | ⟨rest, hrest⟩
      · exact hstep
      · exact hquiet.resolve_left (not_not.mpr hidle) cmd rest hrest
    subst hstep
    exact stepCommand_sameProgram h
  · exact .refl (popped s)

/-! The program stays loaded. -/

theorem SameProgram.programLoaded {t s : State} (h : SameProgram t s) (hs : s.ProgramLoaded) : t.ProgramLoaded := by
  simpa only [State.ProgramLoaded, h.1, h.2] using hs

theorem State.ProgramLoaded.wf {s : State} (h : s.ProgramLoaded) : Memory.wf s.prog = true :=
  Memory.risingFrom_of_indices s.prog 0 s.len (List.range_eq_range' ▸ h)

theorem launch_programLoaded (s : State) (p : List Byte) (a b c : Nat) : (s.launch p a b c).ProgramLoaded :=
  Memory.indices_load p

theorem step_programLoaded {s t : State} (hs : s.ProgramLoaded) (h : step s = .next t) : t.ProgramLoaded := by
  cases step_coreMove h with
  | kept h => exact h.sameProgram.programLoaded hs
  | stepped u hu h => exact (h.sameProgram.trans (coreStep_sameProgram hu)).programLoaded hs
  | restarted a b c _ h => exact h.sameProgram.programLoaded hs
  | launched p a b c _ h => exact h.sameProgram.programLoaded (launch_programLoaded s p a b c)

/-- Settles O38: a step keeps the program or launches another, and a launch lists exactly its indices. -/
theorem stepKeepsProgramLoaded : Obligations.StepKeepsProgramLoaded := by
  intro s t hs h
  have ht := step_programLoaded hs h
  exact ⟨ht, ht.wf⟩

/-! On a loaded program every operation answers a next state. -/

theorem State.ProgramLoaded.cell_isSome {s : State} (hs : s.ProgramLoaded) {i : Nat} (hi : i < s.len) :
    ∃ v, s.cell i = some v := by
  rw [State.cell, if_pos hi]
  exact Memory.read_isSome_of_mem s.prog i (hs ▸ List.mem_range.mpr hi)

theorem exists_next_of_andThen {o : Result} {f : State → Result} (ho : ∃ u, o = .next u)
    (hf : ∀ u, o = .next u → ∃ t, f u = .next t) : ∃ t, andThen o f = .next t := by
  obtain ⟨u, hu⟩ := ho
  obtain ⟨t, ht⟩ := hf u hu
  exact ⟨t, andThen_eq_next.mpr ⟨u, hu, ht⟩⟩

theorem execDecoded_answers (d : Decoded) (s : State) : ∃ t, execDecoded d s = .next t := by
  cases d with
  | instr i =>
    cases hw : i.wellFormed with
    | true => exact ⟨_, exec_of_wellFormed hw s⟩
    | false => exact ⟨_, exec_of_illFormed hw s⟩
  | _ => exact ⟨_, rfl⟩

theorem coreStep_answers {s : State} (hs : s.ProgramLoaded) : ∃ t, coreStep s = .next t := by
  by_cases hk : s.fcause = .noFault
  · rcases Nat.lt_trichotomy (s.pc + 1) s.len with hlt | heq | hgt
    · obtain ⟨c0, c1, hf, -, -⟩ := fetch_of_loaded hs hlt
      rw [coreStep_of_fetch hk hlt hf]
      exact execDecoded_answers _ s
    · exact ⟨_, coreStep_of_truncated hk heq⟩
    · exact ⟨_, coreStep_of_halted hk (Nat.le_of_lt_succ hgt)⟩
  · exact ⟨_, coreStep_of_faulted hk⟩

/-- Going on from a core step, the program is still loaded. -/
theorem coreStep_andThen_answers {s : State} {f : State → Result} (hs : s.ProgramLoaded)
    (hf : ∀ u : State, u.ProgramLoaded → ∃ t, f u = .next t) : ∃ t, andThen (coreStep s) f = .next t :=
  exists_next_of_andThen (coreStep_answers hs) fun u hu => hf u ((coreStep_sameProgram hu).programLoaded hs)

theorem verifyOutput_answers (v : Oct) {s : State} (hs : s.ProgramLoaded) : ∃ t, verifyOutput v s = .next t := by
  unfold verifyOutput
  split
  · exact ⟨_, rfl⟩
  · next hv =>
    obtain ⟨e, he⟩ := hs.cell_isSome (Nat.lt_of_not_le hv)
    rw [he]
    dsimp only
    split <;> exact ⟨_, rfl⟩

theorem verifyHalt_answers {s : State} (hs : s.ProgramLoaded) : ∃ t, verifyHalt s = .next t := by
  unfold verifyHalt
  split
  · next hv =>
    obtain ⟨e, he⟩ := hs.cell_isSome hv
    rw [he]
    exact ⟨_, rfl⟩
  · exact ⟨_, rfl⟩

theorem judgeVerify_answers {s : State} (hs : s.ProgramLoaded) : ∃ t, judgeVerify s = .next t := by
  unfold judgeVerify
  split
  · exact ⟨_, rfl⟩
  · exact verifyOutput_answers _ hs
  · exact verifyHalt_answers hs
  · exact ⟨_, rfl⟩

theorem seedRoundStep_answers {s : State} (hs : s.ProgramLoaded) : ∃ t, seedRoundStep s = .next t := by
  unfold seedRoundStep
  split
  · next hr =>
    obtain ⟨e, he⟩ := hs.cell_isSome (show s.len - 1 - s.round < s.len by omega)
    rw [he]
    exact ⟨_, rfl⟩
  · exact ⟨_, rfl⟩

theorem seedNextStep_answers (t : Byte) (todo next : List Nat) (s : State) :
    ∃ u, seedNextStep t todo next s = .next u := by
  cases todo with
  | nil => exact ⟨_, rfl⟩
  | cons p' rest =>
    simp only [seedNextStep]
    split <;> exact ⟨_, rfl⟩

theorem advance_answers {s : State} (hs : s.ProgramLoaded) : ∃ t, advance s = .next t := by
  unfold advance
  split
  · exact ⟨_, rfl⟩
  · exact coreStep_andThen_answers hs fun _ _ => ⟨_, rfl⟩
  · exact coreStep_andThen_answers hs fun _ _ => ⟨_, rfl⟩
  · exact seedRoundStep_answers hs
  · exact seedNextStep_answers _ _ _ s
  · exact coreStep_andThen_answers hs fun _ _ => ⟨_, rfl⟩
  · exact coreStep_andThen_answers hs fun _ hu => judgeVerify_answers hu

theorem stepCommand_answers {s : State} (hs : s.ProgramLoaded) : ∃ t, stepCommand s = .next t := by
  unfold stepCommand
  split
  · exact ⟨_, rfl⟩
  · exact coreStep_andThen_answers hs fun _ _ => ⟨_, rfl⟩

theorem startWith_answers (refusal : Option RefuseReason) (s started : State) :
    ∃ t, startWith refusal s started = .next t := by
  cases refusal <;> exact ⟨_, rfl⟩

theorem accept_answers (cmd : Command) {s : State} (hs : s.ProgramLoaded) : ∃ t, accept cmd s = .next t := by
  cases cmd with
  | step => exact stepCommand_answers hs
  | _ => exact startWith_answers _ s _

theorem issue_answers (cmd : Command) {s : State} (hs : s.ProgramLoaded) : ∃ t, issue cmd s = .next t := by
  unfold issue
  split
  · exact accept_answers cmd hs
  · exact ⟨_, rfl⟩

theorem step_answers {s : State} (hs : s.ProgramLoaded) : ∃ t, step s = .next t := by
  unfold step machineStep
  split
  · split
    · exact stepCommand_answers hs
    · exact advance_answers hs
  · exact advance_answers hs
  · exact issue_answers _ hs

theorem machineRun_answers (n : Nat) {s : State} (hs : s.ProgramLoaded) : ∃ t, machineRun n s = .next t := by
  induction n generalizing s with
  | zero => exact ⟨s, rfl⟩
  | succ n ih => exact exists_next_of_andThen (step_answers hs) fun u hu => ih (step_programLoaded hs hu)

/-- Settles O39: the program is loaded at reset, stays loaded, and a step on a loaded program answers. -/
theorem noRunIsEverStopped : Obligations.NoRunIsEverStopped :=
  ⟨fun _ => step_answers, fun inbox build n => machineRun_answers n (invariantsHoldAtReset inbox build _ rfl).1⟩

end Sys2Proof.Machine
end

section
/-! PROOF. Decoding and encoding: a cell in the range 0..7 is its field, the two fields are the instruction, and `decode`
has one equation for each outcome of the procedure (spec/30_encoding.md R71, R75, R78, R88). -/

namespace Sys2Proof.Machine

open Sys2Proof.Laws.EncodeFields (fieldCell_toNat)

/-! Cells and fields (R71). -/

theorem cellOutOfRange_iff (c : Byte) : cellOutOfRange c = true ↔ 7 < c.toNat := by
  simp [cellOutOfRange]

theorem cellOutOfRange_of_le {c : Byte} (h : c.toNat ≤ 7) : ¬ cellOutOfRange c = true :=
  fun hc => absurd ((cellOutOfRange_iff c).mp hc) (Nat.not_lt.mpr h)

theorem toNat_cellField {c : Byte} (h : c.toNat ≤ 7) : (cellField c).toNat = c.toNat := by
  simp only [cellField, BitVec.extractLsb'_toNat, Nat.shiftRight_zero]
  omega

theorem fieldCell_cellField {c : Byte} (h : c.toNat ≤ 7) : fieldCell (cellField c) = c :=
  BitVec.eq_of_toNat_eq ((fieldCell_toNat _).1.trans (toNat_cellField h))

@[simp] theorem cellField_fieldCell (f : Oct) : cellField (fieldCell f) = f :=
  BitVec.eq_of_toNat_eq ((toNat_cellField (fieldCell_toNat f).2).trans (fieldCell_toNat f).1)

/-! The opcode map and its inverse (R75), and the check of a term (R78). -/

@[simp] theorem instrOf_op_operand (i : Instr) : instrOf i.op i.operand = i := by
  cases i <;> rfl

/-- The opcode map is dense (R76): every `op` has an instruction, and both fields can be read back from it. -/
theorem fields_instrOf : ∀ op x : Oct, (instrOf op x).op = op ∧ (instrOf op x).operand = x := by
  decide

@[simp] theorem op_instrOf (op x : Oct) : (instrOf op x).op = op := (fields_instrOf op x).1

@[simp] theorem operand_instrOf (op x : Oct) : (instrOf op x).operand = x := (fields_instrOf op x).2

/-- Only the combo operand 7 makes a term ill-formed (R78, R79). -/
theorem wellFormed_iff (i : Instr) :
    i.wellFormed = true ↔ ¬(i.op.toNat ∈ [0, 2, 5, 6, 7] ∧ i.operand.toNat = 7) := by
  have hcombo (x : Oct) : comboLegal x = true ↔ ¬ x.toNat = 7 := by
    simp [comboLegal, ← BitVec.toNat_inj]
  cases i <;> simp [Instr.wellFormed, Instr.op, Instr.operand, hcombo]

/-! The decoder, an equation for each outcome (R88). -/

theorem decode_of_opcode_outOfRange {c0 : Byte} (c1 : Byte) (h0 : 7 < c0.toNat) :
    decode c0 c1 = .illegalOpcode c0 :=
  if_pos ((cellOutOfRange_iff c0).mpr h0)

theorem decode_of_operand_outOfRange {c0 c1 : Byte} (h0 : c0.toNat ≤ 7) (h1 : 7 < c1.toNat) :
    decode c0 c1 = .illegalOperandCell c1 := by
  rw [decode, if_neg (cellOutOfRange_of_le h0), if_pos ((cellOutOfRange_iff c1).mpr h1)]

theorem decode_of_inRange {c0 c1 : Byte} (h0 : c0.toNat ≤ 7) (h1 : c1.toNat ≤ 7) :
    decode c0 c1 = if (instrOf (cellField c0) (cellField c1)).wellFormed then
      .instr (instrOf (cellField c0) (cellField c1)) else .illegalCombo c1 := by
  rw [decode, if_neg (cellOutOfRange_of_le h0), if_neg (cellOutOfRange_of_le h1)]

theorem decode_of_combo_seven {c0 c1 : Byte} (h0 : c0.toNat ∈ [0, 2, 5, 6, 7]) (h1 : c1.toNat = 7) :
    decode c0 c1 = .illegalCombo 7 := by
  have hc0 : c0.toNat ≤ 7 := (by decide : ∀ n ∈ [0, 2, 5, 6, 7], n ≤ 7) _ h0
  have hill : ¬ (instrOf (cellField c0) (cellField c1)).wellFormed = true := by
    simpa only [wellFormed_iff, op_instrOf, operand_instrOf, toNat_cellField hc0, toNat_cellField h1.le, not_not]
      using ⟨h0, h1⟩
  rw [decode_of_inRange hc0 h1.le, if_neg hill]
  exact congrArg _ (BitVec.eq_of_toNat_eq h1)

theorem decode_of_legal_operand {c0 c1 : Byte} (h0 : c0.toNat ≤ 7) (h1 : c1.toNat ≤ 7)
    (hlegal : ¬(c0.toNat ∈ [0, 2, 5, 6, 7] ∧ c1.toNat = 7)) :
    decode c0 c1 = .instr (instrOf (cellField c0) (cellField c1)) := by
  have hwf : (instrOf (cellField c0) (cellField c1)).wellFormed = true := by
    simpa only [wellFormed_iff, op_instrOf, operand_instrOf, toNat_cellField h0, toNat_cellField h1] using hlegal
  rw [decode_of_inRange h0 h1, if_pos hwf]

/-- Two cells that decode to an instruction are in range, and their fields are the instruction's. -/
theorem eq_instrOf_of_decode {c0 c1 : Byte} {i : Instr} (h : decode c0 c1 = .instr i) :
    c0.toNat ≤ 7 ∧ c1.toNat ≤ 7 ∧ i = instrOf (cellField c0) (cellField c1) := by
  have h0 : c0.toNat ≤ 7 := Nat.le_of_not_lt fun h0 => by
    cases (decode_of_opcode_outOfRange c1 h0).symm.trans h
  have h1 : c1.toNat ≤ 7 := Nat.le_of_not_lt fun h1 => by
    cases (decode_of_operand_outOfRange h0 h1).symm.trans h
  rw [decode_of_inRange h0 h1] at h
  split at h
  · exact ⟨h0, h1, (Decoded.instr.inj h).symm⟩
  · cases h

/-! Decoding and encoding are inverse. -/

theorem decode_encode {i : Instr} (h : i.wellFormed = true) : decode (encode i).1 (encode i).2 = .instr i := by
  have hdecode := decode_of_inRange (fieldCell_toNat i.op).2 (fieldCell_toNat i.operand).2
  simpa [encode, h] using hdecode

theorem encode_of_decode {c0 c1 : Byte} {i : Instr} (h : decode c0 c1 = .instr i) : encode i = (c0, c1) := by
  obtain ⟨h0, h1, rfl⟩ := eq_instrOf_of_decode h
  simp [encode, fieldCell_cellField h0, fieldCell_cellField h1]

/-- Settles O2: a field is read back from its cell, and a cell in range is rebuilt from its field. -/
theorem decodeAndEncodeAreInverse : Obligations.DecodeAndEncodeAreInverse :=
  ⟨fun _ => decode_encode, fun _ _ _ h => ⟨decode_wellFormed h, encode_of_decode h⟩⟩

/-- Settles O1, by the decoder's equations in the order of R81. -/
theorem decodeFollowsTheProcedure : Obligations.DecodeFollowsTheProcedure := by
  intro c0 c1
  refine ⟨decode_of_opcode_outOfRange c1, decode_of_operand_outOfRange, fun h0 h1 =>
    ⟨decode_of_combo_seven, fun hlegal => ⟨_, decode_of_legal_operand h0 h1 hlegal, ?_, ?_⟩⟩⟩
  · rw [op_instrOf, toNat_cellField h0]
  · rw [operand_instrOf, toNat_cellField h1]

/-- Settles O3: the words are closed terms, and the decoder runs on each. -/
theorem someTableWordsDecode : Obligations.SomeTableWordsDecode := by
  unfold Obligations.SomeTableWordsDecode
  decide

end Sys2Proof.Machine
end

section
/-! PROOF. The step of the core along a run, and what each instruction hands on to it (spec/40_step_cycle.md R90 to
R105): the fetch, the combo table, the pc and the result, A that never grows, and the two ends, Halt and a fault. -/

namespace Sys2Proof.Machine

/-! The fetch and the host's step (R90, spec/20_memory.md R52). -/

/-- A cell that holds something is inside the program (spec/20_memory.md R51). -/
theorem lt_len_of_cell {s : State} {i : Nat} {c : Byte} (h : s.cell i = some c) : i < s.len := by
  rw [State.cell] at h
  split at h
  · assumption
  · cases h

theorem coreStep_of_cells {s : State} {c0 c1 : Byte} (hk : s.fcause = .noFault) (h0 : s.cell s.pc = some c0)
    (h1 : s.cell (s.pc + 1) = some c1) : coreStep s = execDecoded (decode c0 c1) s :=
  coreStep_of_fetch hk (lt_len_of_cell h1) (by simp [State.fetch, h0, h1])

/-- A host that drives a launched core by steps is handed the core step's result (spec/45_run_commands.md R150). -/
theorem step_of_hostSteps {s : State} (hl : s.launched = true) (hs : s.HostSteps) :
    step s = andThen (coreStep s) fun t => .next { t with answer := .step t.stepResult } := by
  obtain ⟨hidle, hinbox⟩ := hs
  simp [step, machineStep, stepCommand, hl, hidle, hinbox]

/-- Settles O4: both cells lie inside the program, so the step fetches and decodes them. -/
theorem stepRunsTheDecodedInstruction : Obligations.StepRunsTheDecodedInstruction := by
  intro s c0 c1 i hk h0 h1 hd
  have hstep : coreStep s = exec i s := by rw [coreStep_of_cells hk h0 h1, hd, execDecoded]
  exact ⟨hstep, fun hl hs => by rw [step_of_hostSteps hl hs, hstep]⟩

/-! The combo table (R95). -/

/-- The combo instructions with the operand that has no value. -/
def comboTermsOnSeven : List Instr := [.adv 7, .bst 7, .out 7, .bdv 7, .cdv 7]

theorem comboTermsOnSeven_illFormed : ∀ i ∈ comboTermsOnSeven, ¬ i.wellFormed = true := by
  decide

/-- Settles O6: the table is `combo`'s own, and what the decoder answers is well-formed, which no combo instruction on 7
is. -/
theorem comboTable : Obligations.ComboTable := by
  intro s
  refine ⟨rfl, rfl, rfl, rfl, rfl, rfl, rfl, rfl, by decide, fun c0 c1 hmem => ?_⟩
  obtain ⟨i, hi, hd⟩ := List.mem_map.mp (show decode c0 c1 ∈ comboTermsOnSeven.map .instr from hmem)
  exact comboTermsOnSeven_illFormed i hi (decode_wellFormed hd.symm)

/-! The pc and the result after an instruction (R98, R99). -/

/-- Settles O18, from the pc and the output of `effect`. -/
theorem pcAndResultOfEveryInstruction : Obligations.PcAndResultOfEveryInstruction := by
  intro i s t hw h
  cases (exec_of_wellFormed hw s).symm.trans h
  refine ⟨?fires, ?next, ?continues, ?outputs⟩
  case fires =>
    rintro x rfl ha
    simp [effect_jnz, ha, literal]
  case next =>
    intro hnext
    rcases effect_pc_cases i s with h2 | ⟨x, hx, ha, -⟩
    · exact h2
    · rcases hnext with hne | ha0
      · exact absurd hx (hne x)
      · exact absurd ha0 ha
  case continues =>
    intro hne
    rcases effect_output_cases i s with ⟨x, _, hx, -, -⟩ | ⟨-, hres, -⟩
    · exact absurd hx (hne x)
    · exact hres
  case outputs =>
    rintro ⟨x, hx⟩
    rcases effect_output_cases i s with ⟨_, v, -, hres, hout⟩ | ⟨hne, -, -⟩
    · exact ⟨v, hres, hout⟩
    · exact absurd hx (hne x)

/-- Settles O19: a well-formed instruction has its effect, any other term raises IllegalCombo. -/
theorem execAlwaysReachesANextState : Obligations.ExecAlwaysReachesANextState := by
  intro i s
  cases hw : i.wellFormed with
  | true => exact ⟨_, exec_of_wellFormed hw s, nofun⟩
  | false => exact ⟨_, exec_of_illFormed hw s, fun _ => rfl⟩

/-! A along a run (R105). -/

theorem effect_a_le (i : Instr) (s : State) : (effect i s).a ≤ s.a := by
  cases i with
  | adv x => exact Nat.shiftRight_le s.a _
  | _ => exact le_of_eq (effect_a_of_ne_adv (fun _ => by simp) s)

theorem coreStep_a_le {s t : State} (h : coreStep s = .next t) : t.a ≤ s.a := by
  rcases coreStep_executes_or_stops h with ⟨_, _, i, -, -, -, rfl⟩ | ⟨_, _, _, _, -, rfl⟩
  · exact effect_a_le i s
  · exact le_rfl

/-- Settles O21, by induction on the number of steps. -/
theorem registerANeverGrows : Obligations.RegisterANeverGrows := by
  intro n
  induction n with
  | zero => intro s t h; cases h; exact le_rfl
  | succ n ih =>
    intro s t h
    obtain ⟨u, hu, ht⟩ := andThen_eq_next.mp h
    exact (ih u t ht).trans (coreStep_a_le hu)

/-! The two ends of a run, Halt (R91) and a fault (R94): the first step reaches a state that every later one keeps. -/

/-- Any positive number of steps `f` reaches the fixed point that the first one does. -/
theorem run_succ_of_fixed {f : State → Result} {run : Nat → State → Result} (hzero : ∀ s, run 0 s = .next s)
    (hsucc : ∀ n s, run (n + 1) s = andThen (f s) (run n)) {s t : State} (hs : f s = .next t)
    (ht : f t = .next t) (n : Nat) : run (n + 1) s = .next t := by
  induction n generalizing s with
  | zero => rw [hsucc, hs, andThen_next, hzero]
  | succ n ih => rw [hsucc, hs, andThen_next, ih ht]

theorem coreSteps_succ_of_fixed {s t : State} (hs : coreStep s = .next t) (ht : coreStep t = .next t) (n : Nat) :
    coreSteps (n + 1) s = .next t :=
  run_succ_of_fixed (fun _ => rfl) (fun _ _ => rfl) hs ht n

theorem machineRun_succ_of_fixed {s t : State} (hs : step s = .next t) (ht : step t = .next t) (n : Nat) :
    machineRun (n + 1) s = .next t :=
  run_succ_of_fixed (fun _ => rfl) (fun _ _ => rfl) hs ht n

theorem effect_sres_ne_halt (i : Instr) (s : State) : (effect i s).sres ≠ some .halt := by
  rcases effect_output_cases i s with ⟨_, _, -, hres, -⟩ | ⟨-, hres, -⟩ <;> simp [hres]

theorem raise_sres_ne_halt (s : State) (cause : FCause) (v : Byte) : (s.raise cause v).sres ≠ some .halt :=
  nofun

/-- Only a core at or past the end returns Halt (R99). -/
theorem len_le_pc_of_halt {s t : State} (hk : s.fcause = .noFault) (h : coreStep s = .next t)
    (hres : t.sres = some .halt) : s.len ≤ s.pc := by
  rcases coreStep_cases h with ⟨hf, -⟩ | ⟨-, hpc, -⟩ | ⟨-, -, rfl⟩ | ⟨-, -, _, _, -, hd⟩
  · exact absurd hk hf
  · exact hpc
  · exact absurd hres (raise_sres_ne_halt s _ _)
  · rcases hd with ⟨i, -, -, rfl⟩ | ⟨v, -, rfl⟩ | ⟨v, -, rfl⟩ | ⟨v, -, rfl⟩
    · exact absurd hres (effect_sres_ne_halt i s)
    all_goals exact absurd hres (raise_sres_ne_halt s _ _)

/-- Settles O22: a halted core stays halted, since Halt writes the step's result alone. -/
theorem haltIsPermanent : Obligations.HaltIsPermanent := fun s hk =>
  ⟨fun hpc => coreSteps_succ_of_fixed (coreStep_of_halted hk hpc)
      (coreStep_of_halted (s := s.returns .halt) hk hpc),
    fun _ => len_le_pc_of_halt hk⟩

/-- The machine after a faulted core's step: the latched fault is its result and the host has it (spec/10_state.md
R33). -/
def State.faultReported (s : State) : State :=
  { s.returns (.fault s.fcause s.fpc s.fval) with answer := .step (.fault s.fcause s.fpc s.fval) }

theorem step_of_faulted {s : State} (hk : s.fcause ≠ .noFault) (hl : s.launched = true) (hs : s.HostSteps) :
    step s = .next s.faultReported := by
  rw [step_of_hostSteps hl hs, coreStep_of_faulted hk]
  rfl

/-- Settles O23: a step of a faulted core keeps the latch, so the next one returns the same fault. -/
theorem faultIsSticky : Obligations.FaultIsSticky := fun s hk =>
  ⟨coreSteps_succ_of_fixed (coreStep_of_faulted hk)
      (coreStep_of_faulted (s := s.returns (.fault s.fcause s.fpc s.fval)) hk),
    fun hl hs => machineRun_succ_of_fixed (step_of_faulted hk hl hs)
      (step_of_faulted (s := s.faultReported) hk hl hs)⟩

end Sys2Proof.Machine
end

section
/-! PROOF. The shift family, adv, bdv and cdv (spec/41_shift.md R110 to R113): one equation for each from the value of
its operand. Before it, what a fetch makes of an opcode cell and any operand cell, for every family. -/

namespace Sys2Proof.Machine

open Sys2Proof.Laws.EncodeFields (fieldCell_toNat)

/-! The encoding and the faults of an opcode cell (spec/30_encoding.md R78, R80; spec/40_step_cycle.md R106). -/

theorem decode_fieldCell_of_combo {op : Oct} (hop : op.toNat ∈ [0, 2, 5, 6, 7]) (x : Oct) :
    decode (fieldCell op) (fieldCell x) = if x = 7 then .illegalCombo 7 else .instr (instrOf op x) := by
  obtain ⟨hop_cell, hop_le⟩ := fieldCell_toNat op
  obtain ⟨hx_cell, hx_le⟩ := fieldCell_toNat x
  split
  · next h7 => exact decode_of_combo_seven (hop_cell ▸ hop) (by rw [h7]; rfl)
  · next h7 =>
    have hlegal : ¬ (fieldCell x).toNat = 7 := fun h => h7 (BitVec.eq_of_toNat_eq (hx_cell.symm.trans h))
    simpa only [cellField_fieldCell] using decode_of_legal_operand hop_le hx_le fun h => hlegal h.2

theorem raisesIllegalCombo_of_combo {opcode : Byte} (h : opcode.toNat ∈ [0, 2, 5, 6, 7]) :
    RaisesIllegalCombo opcode := by
  intro s hk h0 h1
  rw [coreStep_of_cells hk h0 h1, decode_of_combo_seven h rfl]
  rfl

theorem raisesFetchFaults_of_le {opcode : Byte} (h : opcode.toNat ≤ 7) : RaisesFetchFaults opcode := by
  intro s hk h0
  refine ⟨coreStep_of_truncated hk, fun c1 h1 hc1 => ?_⟩
  rw [coreStep_of_cells hk h0 h1, decode_of_operand_outOfRange h hc1]
  rfl

/-! The shift (spec/40_step_cycle.md R103, R104). -/

theorem shiftRight_eq_div (a k : Nat) : shiftRight a k = a / 2 ^ k :=
  Nat.shiftRight_eq_div_pow a k

/-- A shift by the whole width or more leaves nothing. -/
theorem div_two_pow_of_bitlen_le {a k : Nat} (h : bitlen a ≤ k) : a / 2 ^ k = 0 :=
  Nat.div_eq_of_lt ((bitlen_le_iff a k).mp h)

/-- A number shifted by itself is 0: it is never below its own bit length. -/
theorem div_two_pow_self (a : Nat) : a / 2 ^ a = 0 :=
  Nat.div_eq_of_lt Nat.lt_two_pow_self

/-! The three instructions, from the value of the operand before the step. -/

section
variable {x : Oct} {s : State} {k : Nat}

theorem exec_adv_of_combo (h : combo x s = some k) :
    exec (.adv x) s = .next { s with a := s.a / 2 ^ k, pc := s.pc + 2, sres := some .continues } := by
  rw [← shiftRight_eq_div]
  exact withCombo_of_some h fun s k => ((s.setA (shiftRight s.a k)).advancePc).returns .continues

theorem exec_bdv_of_combo (h : combo x s = some k) :
    exec (.bdv x) s = .next { s with b := s.a / 2 ^ k, pc := s.pc + 2, sres := some .continues } := by
  rw [← shiftRight_eq_div]
  exact withCombo_of_some h fun s k => ((s.setB (shiftRight s.a k)).advancePc).returns .continues

theorem exec_cdv_of_combo (h : combo x s = some k) :
    exec (.cdv x) s = .next { s with c := s.a / 2 ^ k, pc := s.pc + 2, sres := some .continues } := by
  rw [← shiftRight_eq_div]
  exact withCombo_of_some h fun s k => ((s.setC (shiftRight s.a k)).advancePc).returns .continues

/-- `bdv` writes B alone of the registers, and only the operand 5 reads it. -/
theorem combo_of_exec_bdv {t : State} (h5 : x ≠ 5) (h : combo x s = some k) (ht : exec (.bdv x) s = .next t) :
    combo x t = some k := by
  cases (exec_bdv_of_combo h).symm.trans ht
  rw [← h]
  exact combo_congr (fun _ => rfl) (fun hx => absurd hx h5) (fun _ => rfl)

end

/-- Settles O7: the corner cases are `exec_adv_of_combo` at the operand's value, 0 and A itself. -/
theorem advEffect : Obligations.AdvEffect := by
  refine ⟨decode_fieldCell_of_combo (op := 0) (by decide), raisesIllegalCombo_of_combo (by decide),
    raisesFetchFaults_of_le (by decide), fun s => ⟨fun x hx => ?legal, ?zero, ?four⟩⟩
  case legal =>
    obtain ⟨k, hk⟩ := combo_isSome_of_ne hx s
    exact ⟨k, hk, exec_adv_of_combo hk, div_two_pow_of_bitlen_le⟩
  case zero => simpa using exec_adv_of_combo (x := 0) (s := s) rfl
  case four => simpa [div_two_pow_self] using exec_adv_of_combo (x := 4) (s := s) rfl

/-- Settles O8: the corner cases are `exec_bdv_of_combo` at the operand's value, 0, A and the old B. -/
theorem bdvEffect : Obligations.BdvEffect := by
  refine ⟨decode_fieldCell_of_combo (op := 6) (by decide), raisesIllegalCombo_of_combo (by decide),
    raisesFetchFaults_of_le (by decide), fun s => ⟨fun x hx => ?legal, ?zero, ?four, exec_bdv_of_combo rfl⟩⟩
  case legal =>
    obtain ⟨k, hk⟩ := combo_isSome_of_ne hx s
    exact ⟨k, hk, exec_bdv_of_combo hk⟩
  case zero => simpa using exec_bdv_of_combo (x := 0) (s := s) rfl
  case four => simpa [div_two_pow_self] using exec_bdv_of_combo (x := 4) (s := s) rfl

/-- Settles O9: the corner cases are `exec_cdv_of_combo` at the operand's value, 0, the old C and B. -/
theorem cdvEffect : Obligations.CdvEffect := by
  refine ⟨decode_fieldCell_of_combo (op := 7) (by decide), raisesIllegalCombo_of_combo (by decide),
    raisesFetchFaults_of_le (by decide), fun s =>
      ⟨fun x hx => ?legal, ?zero, exec_cdv_of_combo rfl, fun hb => ?five⟩⟩
  case legal =>
    obtain ⟨k, hk⟩ := combo_isSome_of_ne hx s
    exact ⟨k, hk, exec_cdv_of_combo hk⟩
  case zero => simpa using exec_cdv_of_combo (x := 0) (s := s) rfl
  case five => simpa [div_two_pow_of_bitlen_le hb] using exec_cdv_of_combo (x := 5) (s := s) rfl

/-- Settles O15: the cdv shifts the same A by the same value. -/
theorem bdvThenCdvAgree : Obligations.BdvThenCdvAgree := by
  intro s t u x h5 h7 ht hu
  obtain ⟨k, hk⟩ := combo_isSome_of_ne h7 s
  have hk' : combo x t = some k := combo_of_exec_bdv h5 hk ht
  cases (exec_bdv_of_combo hk).symm.trans ht
  cases (exec_cdv_of_combo hk').symm.trans hu
  exact ⟨rfl, rfl, Nat.div_le_self _ _⟩

end Sys2Proof.Machine
end

section
/-! PROOF. The bitwise family, bxl, bst and bxc (spec/42_bitwise.md R120 to R123): what `xor` and `mod 8` do to a
number, the encoding of the opcodes whose operand is no combo operand, then one equation for each instruction. -/

namespace Sys2Proof.Machine

open Sys2Proof.Laws.EncodeFields (fieldCell_toNat)

/-! The arithmetic (spec/40_step_cycle.md R103): a 3-bit operand of `xor` reaches the low three bits alone. -/

theorem xor_oct_div_eight (b : Nat) (x : Oct) : (b ^^^ x.toNat) / 8 = b / 8 := by
  have hx : x.toNat / 2 ^ 3 = 0 := Nat.div_eq_of_lt x.isLt
  simpa only [hx, Nat.xor_zero] using Nat.xor_div_two_pow (a := b) (b := x.toNat) (n := 3)

theorem xor_oct_le (b : Nat) (x : Oct) : b ^^^ x.toNat ≤ b + 7 := by
  have hhigh := xor_oct_div_eight b x
  omega

theorem bitlen_xor_le (b c : Nat) : bitlen (b ^^^ c) ≤ max (bitlen b) (bitlen c) :=
  (bitlen_le_iff _ _).mpr <|
    Nat.xor_lt_two_pow ((bitlen_le_iff b _).mp (le_max_left _ _)) ((bitlen_le_iff c _).mp (le_max_right _ _))

theorem toNat_low3 (v : Nat) : (low3 v).toNat = v % 8 :=
  BitVec.toNat_ofNat v 3

/-! The encoding of an opcode whose operand is no combo operand: all eight operands are legal (spec/30_encoding.md
R79). -/

theorem decode_fieldCell_of_not_combo {op : Oct} (hop : op.toNat ∉ [0, 2, 5, 6, 7]) (x : Oct) :
    decode (fieldCell op) (fieldCell x) = .instr (instrOf op x) := by
  obtain ⟨hop_cell, hop_le⟩ := fieldCell_toNat op
  simpa only [cellField_fieldCell] using
    decode_of_legal_operand hop_le (fieldCell_toNat x).2 fun h => hop (hop_cell ▸ h.1)

/-! The three instructions. -/

/-- An operand in 0..3 is its own combo value (R95). -/
theorem combo_of_toNat_le_three {x : Oct} (s : State) (h : x.toNat ≤ 3) : combo x s = some x.toNat := by
  obtain rfl | rfl | rfl | rfl : x = 0 ∨ x = 1 ∨ x = 2 ∨ x = 3 := by
    revert x
    decide
  all_goals rfl

theorem exec_bxl (x : Oct) (s : State) :
    exec (.bxl x) s = .next { s with b := s.b ^^^ x.toNat, pc := s.pc + 2, sres := some .continues } :=
  rfl

theorem exec_bst_of_combo {x : Oct} {s : State} {v : Nat} (h : combo x s = some v) :
    exec (.bst x) s = .next { s with b := v % 8, pc := s.pc + 2, sres := some .continues } := by
  rw [← toNat_low3]
  exact withCombo_of_some h fun s v => ((s.setB (low3 v).toNat).advancePc).returns .continues

theorem exec_bxc (x : Oct) (s : State) :
    exec (.bxc x) s = .next { s with b := s.b ^^^ s.c, pc := s.pc + 2, sres := some .continues } :=
  rfl

/-- Settles O10: only the low three bits of B can change, and `bxl 0` is `exec_bxl` at the operand 0. -/
theorem bxlEffect : Obligations.BxlEffect := by
  refine ⟨decode_fieldCell_of_not_combo (op := 1) (by decide), raisesFetchFaults_of_le (by decide),
    fun s x => ⟨exec_bxl x s, xor_oct_div_eight s.b x, xor_oct_le s.b x, Nat.xor_xor_cancel_right s.b x.toNat,
      ?zero⟩⟩
  case zero => simpa using exec_bxl 0 s

/-- Settles O11: the corner cases are `exec_bst_of_combo` at the operand's value, a constant below 8 and the old B. -/
theorem bstEffect : Obligations.BstEffect := by
  refine ⟨decode_fieldCell_of_combo (op := 2) (by decide), raisesIllegalCombo_of_combo (by decide),
    raisesFetchFaults_of_le (by decide), fun s =>
      ⟨fun x hx => ?legal, fun x hx => ?constant, exec_bst_of_combo rfl⟩⟩
  case legal =>
    obtain ⟨v, hv⟩ := combo_isSome_of_ne hx s
    exact ⟨v, hv, by omega, exec_bst_of_combo hv⟩
  case constant =>
    have hmod : x.toNat % 8 = x.toNat := Nat.mod_eq_of_lt x.isLt
    simpa only [hmod] using exec_bst_of_combo (combo_of_toNat_le_three s hx)

/-- Settles O12: the operand is not read, and `xor` needs no bit that neither B nor C has. -/
theorem bxcEffect : Obligations.BxcEffect := by
  refine ⟨decode_fieldCell_of_not_combo (op := 4) (by decide), raisesFetchFaults_of_le (by decide),
    fun s x => ⟨exec_bxc x s, fun hc => ?zero, fun hbc => ?same, bitlen_xor_le s.b s.c⟩⟩
  case zero => rw [hc, Nat.xor_zero]
  case same => rw [hbc, Nat.xor_self]

end Sys2Proof.Machine
end

section
/-! PROOF. Control transfer, jnz (spec/43_jump.md R130, R133): one equation for the instruction, then the core step that
leaves the pc where it is. -/

namespace Sys2Proof.Machine

theorem exec_jnz (x : Oct) (s : State) :
    exec (.jnz x) s =
      .next { s with pc := if s.a ≠ 0 then x.toNat else s.pc + 2, sres := some .continues } := by
  rw [exec_of_wellFormed rfl, effect_jnz]
  rfl

theorem decode_jnz (x : Oct) : decode 3 (fieldCell x) = .instr (.jnz x) :=
  decode_fieldCell_of_not_combo (op := 3) (by decide) x

/-- Settles O13: the two cases are those of the pc in `exec_jnz`. -/
theorem jnzEffect : Obligations.JnzEffect := by
  refine ⟨decode_jnz, raisesFetchFaults_of_le (by decide), fun s x => ⟨fun ha => ?fires, fun ha => ?next⟩⟩
  case fires => rw [exec_jnz, if_pos ha]
  case next => rw [exec_jnz, if_neg (not_not.mpr ha)]

/-- A jump to its own address writes the step's result alone (R133). -/
theorem coreStep_of_jnz_self {s : State} {x : Oct} (hk : s.fcause = .noFault) (ha : s.a ≠ 0) (hpc : s.pc = x.toNat)
    (h0 : s.cell s.pc = some 3) (h1 : s.cell (s.pc + 1) = some (fieldCell x)) :
    coreStep s = .next { s with sres := some .continues } := by
  rw [coreStep_of_cells hk h0 h1, decode_jnz, execDecoded, exec_jnz, if_pos ha, ← hpc]

/-- Settles O28: the state after the first step still meets every hypothesis, so the jump keeps it. -/
theorem jumpToItselfNeverEnds : Obligations.JumpToItselfNeverEnds := fun s _ hk ha hpc h0 h1 =>
  coreSteps_succ_of_fixed (coreStep_of_jnz_self hk ha hpc h0 h1)
    (coreStep_of_jnz_self (s := { s with sres := some .continues }) hk ha hpc h0 h1)

end Sys2Proof.Machine
end

section
/-! PROOF. Output, out (spec/44_output.md R140): the low three bits of an operand, then one equation for the instruction
from the value of its operand. -/

namespace Sys2Proof.Machine

/-- An operand is its own low three bits. -/
@[simp] theorem low3_toNat (x : Oct) : low3 x.toNat = x :=
  BitVec.eq_of_toNat_eq ((toNat_low3 x.toNat).trans (Nat.mod_eq_of_lt x.isLt))

theorem exec_out_of_combo {x : Oct} {s : State} {n : Nat} (h : combo x s = some n) :
    exec (.out x) s =
      .next { s with out := s.out ++ [low3 n], pc := s.pc + 2, sres := some (.output (low3 n)) } :=
  withCombo_of_some h fun s n => ((s.emit (low3 n)).advancePc).returns (.output (low3 n))

/-- Settles O14: the value emitted is the low three bits of the operand's value, and an operand in 0..3 is that value. -/
theorem outEffect : Obligations.OutEffect := by
  refine ⟨decode_fieldCell_of_combo (op := 5) (by decide), raisesIllegalCombo_of_combo (by decide),
    raisesFetchFaults_of_le (by decide), fun s x hx => ?legal⟩
  case legal =>
    obtain ⟨n, hn⟩ := combo_isSome_of_ne hx s
    refine ⟨n, low3 n, hn, toNat_low3 n, fun hconst => ?constant, exec_out_of_combo hn⟩
    case constant =>
      have hval : n = x.toNat := Option.some.inj (hn.symm.trans (combo_of_toNat_le_three s hconst))
      rw [hval, low3_toNat]

end Sys2Proof.Machine
end

section
/-! PROOF. How a run of the core ends (spec/40_step_cycle.md R90, R98, R99): what a step of a running core comes to, the
two ends that every later step keeps, and the outputs, which only grow. -/

namespace Sys2Proof.Machine

/-! The status (spec/10_state.md R32). -/

/-- A launched core with no fault recorded. -/
def State.Live (s : State) : Prop := s.launched = true ∧ s.fcause = .noFault

theorem launch_live (s : State) (p : List Byte) (a b c : Nat) : (s.launch p a b c).Live := ⟨rfl, rfl⟩

theorem status_eq_halt_iff (s : State) : s.status = .halt ↔ s.Live ∧ s.len ≤ s.pc := by
  unfold State.status
  split
  · next hl => simp [State.Live, hl]
  · split
    · next hk => simp [State.Live, hk]
    · split <;> simp_all [State.Live]

theorem status_eq_fault_iff (s : State) : s.status = .fault ↔ s.launched = true ∧ s.fcause ≠ .noFault := by
  unfold State.status
  split
  · next hl => simp [hl]
  · split
    · simp_all
    · split <;> simp_all

/-! What one step comes to. -/

/-- The four results of a step from a core without a fault (spec/00_scope.md R13), each with what the state after it
says. -/
inductive StepOutcome (s t : State) : Prop where
  | continues (hres : t.sres = some .continues) (hk : t.fcause = .noFault) (hout : t.out = s.out)
  | output (v : Oct) (hres : t.sres = some (.output v)) (hk : t.fcause = .noFault) (hout : t.out = s.out ++ [v])
  | halted (hpc : s.len ≤ s.pc) (ht : t = s.returns .halt)
  | faulted (hres : t.sres = some (.fault t.fcause t.fpc t.fval)) (hk : t.fcause ≠ .noFault) (hout : t.out = s.out)

theorem effect_outcome (i : Instr) {s : State} (hk : s.fcause = .noFault) : StepOutcome s (effect i s) := by
  have hk' := (effect_keeps_latch i s).1.trans hk
  rcases effect_output_cases i s with ⟨_, v, -, hres, hout⟩ | ⟨-, hres, hout⟩
  · exact .output v hres hk' hout
  · exact .continues hres hk' hout

theorem coreStep_outcome {s t : State} (hk : s.fcause = .noFault) (h : coreStep s = .next t) : StepOutcome s t := by
  rcases coreStep_cases h with ⟨hf, -⟩ | ⟨-, hpc, ht⟩ | ⟨-, -, rfl⟩ | ⟨-, -, _, _, -, hd⟩
  · exact absurd hk hf
  · exact .halted hpc ht
  · exact .faulted rfl nofun rfl
  · rcases hd with ⟨i, -, -, rfl⟩ | ⟨v, -, rfl⟩ | ⟨v, -, rfl⟩ | ⟨v, -, rfl⟩
    · exact effect_outcome i hk
    all_goals exact .faulted rfl nofun rfl

/-! The two ends. -/

theorem coreStep_returns_halt {s : State} (hk : s.fcause = .noFault) (hpc : s.len ≤ s.pc) :
    coreStep (s.returns .halt) = .next (s.returns .halt) :=
  coreStep_of_halted (s := s.returns .halt) hk hpc

theorem coreStep_of_fault_returned {s : State} (hk : s.fcause ≠ .noFault)
    (hres : s.sres = some (.fault s.fcause s.fpc s.fval)) : coreStep s = .next s := by
  rw [coreStep_of_faulted hk, State.returns, ← hres]

theorem eq_of_coreSteps_of_fixed {n : Nat} {s t : State} (hs : coreStep s = .next s)
    (h : coreSteps n s = .next t) : t = s := by
  cases n with
  | zero => cases h; rfl
  | succ n => cases h.symm.trans (coreSteps_succ_of_fixed hs hs n); rfl

/-! Steps one after the other. -/

theorem coreSteps_succ_of_coreStep {n : Nat} {s u t : State} (h : coreSteps n s = .next u) (hu : coreStep u = .next t) :
    coreSteps (n + 1) s = .next t := by
  induction n generalizing s with
  | zero => cases h; exact andThen_eq_next.mpr ⟨t, hu, rfl⟩
  | succ n ih =>
    obtain ⟨w, hw, hn⟩ := andThen_eq_next.mp h
    exact andThen_eq_next.mpr ⟨w, hw, ih hn⟩

theorem coreStep_out_prefix {s t : State} (h : coreStep s = .next t) : s.out <+: t.out := by
  rcases outputIsAppendOnly s t h with ⟨v, -, hout⟩ | ⟨-, hout⟩
  · exact ⟨[v], hout.symm⟩
  · exact hout ▸ List.prefix_rfl

theorem coreSteps_out_prefix {n : Nat} {s t : State} (h : coreSteps n s = .next t) : s.out <+: t.out := by
  induction n generalizing s with
  | zero => cases h; exact List.prefix_rfl
  | succ n ih =>
    obtain ⟨u, hu, ht⟩ := andThen_eq_next.mp h
    exact (coreStep_out_prefix hu).trans (ih ht)

/-- Settles O57: the first step that emits leaves OUT with one element, and later ones keep it as the head. -/
theorem firstOutputIsTheHeadOfTheTrace : Obligations.FirstOutputIsTheHeadOfTheTrace := by
  intro n s t v rest hs h ht
  induction n generalizing s with
  | zero => cases h; cases hs.symm.trans ht
  | succ n ih =>
    obtain ⟨w, hw, hn⟩ := andThen_eq_next.mp h
    rcases outputIsAppendOnly s w hw with ⟨v', -, hout⟩ | ⟨-, hout⟩
    · have hpre : [v'] <+: v :: rest := by simpa only [hout, hs, ht, List.nil_append] using coreSteps_out_prefix hn
      obtain ⟨rfl, -⟩ := List.cons_prefix_cons.mp hpre
      exact ⟨1, w, by omega, andThen_eq_next.mpr ⟨w, hw, rfl⟩, by rw [hout, hs, List.nil_append]⟩
    · obtain ⟨m, u, hm, hu, hv⟩ := ih w (hout.trans hs) hn
      exact ⟨m + 1, u, by omega, andThen_eq_next.mpr ⟨w, hw, hu⟩, hv⟩

end Sys2Proof.Machine
end

section
/-! PROOF. A run without a jnz (spec/45_run_commands.md R159): its opcode cells are those at the even indices, in order,
so each step brings the pc two cells nearer to the end. -/

namespace Sys2Proof.Machine

/-- A run that stands at an even index of a loaded program with no jnz at an even index. -/
structure State.StraightLine (s : State) : Prop where
  live : s.Live
  loaded : s.ProgramLoaded
  evenPc : s.pc % 2 = 0
  noJnz : ∀ i, i % 2 = 0 → s.cell i ≠ some 3

theorem cell_of_fetch {s : State} {c0 c1 : Byte} (h : s.fetch = some (c0, c1)) : s.cell s.pc = some c0 := by
  unfold State.fetch at h
  split at h
  · next h0 _ => cases h; exact h0
  · cases h

theorem opcode_of_decode_jnz {c0 c1 : Byte} {x : Oct} (h : decode c0 c1 = .instr (.jnz x)) : c0 = 3 := by
  have hcell : fieldCell 3 = c0 := congrArg Prod.fst (encode_of_decode h)
  rw [← hcell]
  decide

/-- The instruction fetched is no jnz, so the pc moves on by two cells. -/
theorem effect_straightLine {s : State} (h : s.StraightLine) {c0 c1 : Byte} {i : Instr}
    (hf : s.fetch = some (c0, c1)) (hd : decode c0 c1 = .instr i) :
    (effect i s).StraightLine ∧ (effect i s).pc = s.pc + 2 := by
  have hsur := effect_sameSurroundings i s
  have hpc : (effect i s).pc = s.pc + 2 := by
    rcases effect_pc_cases i s with h2 | ⟨x, rfl, -, -⟩
    · exact h2
    · exact absurd (opcode_of_decode_jnz hd ▸ cell_of_fetch hf) (h.noJnz _ h.evenPc)
  refine ⟨⟨⟨?_, ?_⟩, ?_, ?_, ?_⟩, hpc⟩
  · rw [← hsur.launched_eq, h.live.1]
  · rw [(effect_keeps_latch i s).1, h.live.2]
  · rw [State.ProgramLoaded, ← hsur.prog_eq, ← hsur.len_eq, h.loaded]
  · rw [hpc, Nat.add_mod_right, h.evenPc]
  · intro k hk
    rw [State.cell, ← hsur.prog_eq, ← hsur.len_eq]
    exact h.noJnz k hk

theorem launch_straightLine (s : State) {p : List Byte} (a b c : Nat) (hp : ∀ k, p[2 * k]? ≠ some 3) :
    (s.launch p a b c).StraightLine where
  live := launch_live s p a b c
  loaded := launch_programLoaded s p a b c
  evenPc := rfl
  noJnz i hi := by
    rw [cell_launch, show i = 2 * (i / 2) by omega]
    exact hp (i / 2)

/-- The core is halted, or its next step faults. -/
def State.AtEnd (s : State) : Prop := s.status = .halt ∨ ∃ w, coreStep s = .next w ∧ w.status = .fault

/-- A straight line is at its end, or the next step stays on it and brings the pc two cells on. -/
theorem State.StraightLine.atEnd_or_step {s : State} (h : s.StraightLine) :
    s.AtEnd ∨ s.pc + 1 < s.len ∧
      ∃ t, coreStep s = .next t ∧ t.StraightLine ∧ t.pc = s.pc + 2 ∧ t.len = s.len := by
  obtain ⟨t, ht⟩ := coreStep_answers h.loaded
  have hsur := coreStep_sameSurroundings ht
  have hfault (hk : t.fcause ≠ .noFault) : s.AtEnd :=
    .inr ⟨t, ht, (status_eq_fault_iff t).mpr ⟨hsur.launched_eq ▸ h.live.1, hk⟩⟩
  rcases coreStep_cases ht with ⟨hf, -⟩ | ⟨-, hpc, -⟩ | ⟨-, -, rfl⟩ | ⟨-, hpc, c0, c1, hf, hd⟩
  · exact absurd h.live.2 hf
  · exact .inl (.inl ((status_eq_halt_iff s).mpr ⟨h.live, hpc⟩))
  · exact .inl (hfault nofun)
  · rcases hd with ⟨i, hi, -, rfl⟩ | ⟨v, -, rfl⟩ | ⟨v, -, rfl⟩ | ⟨v, -, rfl⟩
    · obtain ⟨hline, hpc2⟩ := effect_straightLine h hf hi
      exact .inr ⟨hpc, _, ht, hline, hpc2, hsur.len_eq.symm⟩
    all_goals exact .inl (hfault nofun)

theorem State.StraightLine.ends {s : State} (h : s.StraightLine) :
    ∃ n u, n ≤ (s.len - s.pc) / 2 ∧ coreSteps n s = .next u ∧ u.AtEnd := by
  induction hd : (s.len - s.pc) / 2 generalizing s with
  | zero =>
    rcases h.atEnd_or_step with hend | ⟨hpc, -⟩
    · exact ⟨0, s, le_rfl, rfl, hend⟩
    · omega
  | succ d ih =>
    rcases h.atEnd_or_step with hend | ⟨hpc, t, ht, hline, hpc2, hlen⟩
    · exact ⟨0, s, Nat.zero_le _, rfl, hend⟩
    · obtain ⟨n, u, hn, hu, hend⟩ := ih hline (by omega)
      exact ⟨n + 1, u, by omega, andThen_eq_next.mpr ⟨t, ht, hu⟩, hend⟩

/-- Settles O29: a launch starts a straight line at index 0. -/
theorem runWithoutJnzEnds : Obligations.RunWithoutJnzEnds := fun s _ a b c hp =>
  (launch_straightLine s a b c hp).ends

end Sys2Proof.Machine
end

section
/-! PROOF. The host's next action (spec/45_run_commands.md R150, spec/60_exceptions.md R228, R236): one equation of the
machine's step for each action and each activity. -/

namespace Sys2Proof.Machine

section
variable {s : State} {rest : List HostAction} {cmd : Command}

theorem step_of_wait (h : s.inbox = .wait :: rest) : step s = advance { s with inbox := rest } := by
  simp only [step, machineStep, h]

theorem step_of_issue_idle (h : s.inbox = .issue cmd :: rest) (hidle : s.activity = .idle) :
    step s = accept cmd { s with inbox := rest } := by
  simp only [step, machineStep, h, issue, hidle]

theorem step_of_issue_busy (h : s.inbox = .issue cmd :: rest) (hbusy : s.activity ≠ .idle) :
    step s = .next ({ s with inbox := rest }.refuse .busy) := by
  simp only [step, machineStep, h, issue]

theorem step_of_inbox_nil (h : s.inbox = []) :
    step s = if s.activity = .idle then accept .step s else advance s := by
  simp only [step, machineStep, h, accept]

end

/-- Settles O5, action by action. -/
theorem machineFollowsTheHost : Obligations.MachineFollowsTheHost := by
  intro s rest cmd
  refine ⟨step_of_wait, step_of_issue_idle, step_of_issue_busy, fun hin hbusy => ?carriedOn, fun hs => ?stepped⟩
  case carriedOn => rw [step_of_inbox_nil hin, if_neg hbusy]
  case stepped => rw [step_of_inbox_nil hs.2, if_pos hs.1]

end Sys2Proof.Machine
end

section
/-! PROOF. The commands that step the core until a step has an answer (spec/45_run_commands.md R151, R153). Such a
command is given by what it answers, if anything, to a step's result and the outputs so far; the machine hands the host
the first answer along the core's steps from the launch, and no other. -/

namespace Sys2Proof.Machine

open Relation (ReflTransGen)

/-- What a command answers to a step's result and the outputs so far; `none` where it goes on. -/
abbrev Answers := StepResult → List Oct → Option Answer

/-- `run` (R151): Halt and a fault are answered. -/
def runAnswers : Answers
  | .continues, _ => none
  | .output _, _ => none
  | .halt, out => some (.runOk out)
  | .fault cause fpc fval, out => some (.runFault cause fpc fval out)

/-- `run_until_first_output` (R153): an output is answered too. -/
def firstAnswers : Answers
  | .continues, _ => none
  | .output v, _ => some (.firstOk (some v))
  | .halt, _ => some (.firstOk none)
  | .fault cause fpc fval, _ => some (.firstFault cause fpc fval)

/-- What the command answers after the last step. -/
def State.answerBy (s : State) (f : Answers) : Option Answer := f s.stepResult s.out

theorem answerBy_of_sres {s : State} {r : StepResult} (f : Answers) (h : s.sres = some r) :
    s.answerBy f = f r s.out := by
  rw [State.answerBy, State.stepResult, h, Option.getD_some]

/-- The command is over where it has an answer, and else goes on. -/
def State.judgedBy (s : State) (f : Answers) : State :=
  match s.answerBy f with
  | none => s
  | some r => s.finish r

theorem judgeRun_eq_judgedBy (s : State) : judgeRun s = s.judgedBy runAnswers := by
  cases h : s.stepResult <;> simp only [judgeRun, State.judgedBy, State.answerBy, runAnswers, h]

theorem judgeFirst_eq_judgedBy (s : State) : judgeFirst s = s.judgedBy firstAnswers := by
  cases h : s.stepResult <;> simp only [judgeFirst, State.judgedBy, State.answerBy, firstAnswers, h]

/-! The core's side: the first step with an answer. -/

/-- A core step that has no answer. -/
def GoesOn (f : Answers) (s t : State) : Prop := coreStep s = .next t ∧ t.answerBy f = none

/-- Along the core's steps from `s`, the first one with an answer goes from `u` to `t`, and `r` is that answer. -/
structure FirstAnswer (f : Answers) (s u t : State) (r : Answer) : Prop where
  goesOn : ReflTransGen (GoesOn f) s u
  step : coreStep u = .next t
  answer : t.answerBy f = some r

theorem FirstAnswer.head {f : Answers} {s w u t : State} {r : Answer} (hw : GoesOn f s w)
    (h : FirstAnswer f w u t r) : FirstAnswer f s u t r :=
  ⟨.head hw h.goesOn, h.step, h.answer⟩

theorem exists_coreSteps_of_goesOn {f : Answers} {s u : State} (h : ReflTransGen (GoesOn f) s u) :
    ∃ n, coreSteps n s = .next u := by
  induction h with
  | refl => exact ⟨0, rfl⟩
  | tail _ hu ih =>
    obtain ⟨n, hn⟩ := ih
    exact ⟨n + 1, coreSteps_succ_of_coreStep hn hu.1⟩

/-- Either none of the steps of a run has an answer, or the run goes on from the first that has one. -/
theorem goesOn_or_firstAnswer (f : Answers) {n : Nat} {s u : State} (h : coreSteps n s = .next u) :
    ReflTransGen (GoesOn f) s u ∨ ∃ v t r m, FirstAnswer f s v t r ∧ coreSteps m t = .next u := by
  induction n generalizing s with
  | zero => cases h; exact .inl .refl
  | succ n ih =>
    obtain ⟨w, hw, hn⟩ := andThen_eq_next.mp h
    cases ha : w.answerBy f with
    | some r => exact .inr ⟨s, w, r, n, ⟨.refl, hw, ha⟩, hn⟩
    | none =>
      rcases ih hn with hgo | ⟨v, t, r, m, hfirst, hm⟩
      · exact .inl (.head ⟨hw, ha⟩ hgo)
      · exact .inr ⟨v, t, r, m, hfirst.head ⟨hw, ha⟩, hm⟩

/-- What each step without an answer keeps holds after all of them. -/
theorem invariant_of_goesOn {f : Answers} {P : State → Prop} (hP : ∀ s t, P s → GoesOn f s t → P t)
    {s u : State} (hs : P s) (h : ReflTransGen (GoesOn f) s u) : P u := by
  induction h with
  | refl => exact hs
  | tail _ hu ih => exact hP _ _ ih hu

/-! The machine's side. -/

/-- The command in progress on `e`, with no host action waiting, steps the core and is judged by `f`. -/
structure Performs (f : Answers) (e : State) : Prop where
  noResult : e.answer = .noResult
  inbox : e.inbox = []
  step_eq : ∀ s, step (e.withCoreOf s) = andThen (coreStep (e.withCoreOf s)) fun t => .next (t.judgedBy f)

/-- The answers of the `step` command, which is all that an idle host gets past the end of its inbox. -/
inductive OfStepCommand : Answer → Prop where
  | step (r : StepResult) : OfStepCommand (.step r)
  | refused (why : RefuseReason) : OfStepCommand (.refused why)

theorem SameSurroundings.activity_eq {s t : State} (h : SameSurroundings s t) : s.activity = t.activity := by
  simp only [SameSurroundings] at h
  simp only [h]

theorem SameSurroundings.inbox_eq {s t : State} (h : SameSurroundings s t) : s.inbox = t.inbox := by
  simp only [SameSurroundings] at h
  simp only [h]

theorem step_hostSteps {s t : State} (hs : s.HostSteps) (h : step s = .next t) :
    t.HostSteps ∧ OfStepCommand t.answer := by
  rw [step_of_inbox_nil hs.2, if_pos hs.1, accept, stepCommand] at h
  split at h
  · cases h; exact ⟨hs, .refused _⟩
  · obtain ⟨u, hu, ht⟩ := andThen_eq_next.mp h
    have hsur := coreStep_sameSurroundings hu
    cases ht
    exact ⟨⟨hsur.activity_eq ▸ hs.1, hsur.inbox_eq ▸ hs.2⟩, .step _⟩

theorem machineRun_hostSteps {n : Nat} {s t : State} (hs : s.HostSteps) (h : machineRun n s = .next t) :
    t = s ∨ OfStepCommand t.answer := by
  induction n generalizing s with
  | zero => cases h; exact .inl rfl
  | succ n ih =>
    obtain ⟨u, hu, ht⟩ := andThen_eq_next.mp h
    obtain ⟨hhost, hans⟩ := step_hostSteps hs hu
    rcases ih hhost ht with rfl | ht
    · exact .inr hans
    · exact .inr ht

section
variable {f : Answers} {e : State} (hf : Performs f e)
include hf

theorem Performs.step_of_coreStep {s t : State} (h : coreStep s = .next t) :
    step (e.withCoreOf s) = .next ((e.withCoreOf t).judgedBy f) := by
  rw [hf.step_eq, coreStep_withCoreOf e h, andThen_next]

theorem Performs.step_of_goesOn {s t : State} (h : GoesOn f s t) :
    step (e.withCoreOf s) = .next (e.withCoreOf t) := by
  have hnone : (e.withCoreOf t).answerBy f = none := h.2
  rw [hf.step_of_coreStep h.1, State.judgedBy, hnone]

theorem Performs.step_of_answer {s t : State} {r : Answer} (h : coreStep s = .next t) (hr : t.answerBy f = some r) :
    step (e.withCoreOf s) = .next ((e.withCoreOf t).finish r) := by
  have hsome : (e.withCoreOf t).answerBy f = some r := hr
  rw [hf.step_of_coreStep h, State.judgedBy, hsome]

/-- The machine comes to the core's first answer. -/
theorem Performs.machineRun_of_firstAnswer {s u t : State} {r : Answer} (h : FirstAnswer f s u t r) :
    ∃ k, machineRun k (e.withCoreOf s) = .next ((e.withCoreOf t).finish r) := by
  obtain ⟨hgo, hu, hr⟩ := h
  induction hgo using ReflTransGen.head_induction_on with
  | refl => exact ⟨1, andThen_eq_next.mpr ⟨_, hf.step_of_answer hu hr, rfl⟩⟩
  | head hw _ ih =>
    obtain ⟨k, hk⟩ := ih
    exact ⟨k + 1, andThen_eq_next.mpr ⟨_, hf.step_of_goesOn hw, hk⟩⟩

/-- An answer that is not a `step` command's is the core's first one, and the core is as that step left it. -/
theorem Performs.firstAnswer_of_machineRun {k : Nat} {s t : State} (h : machineRun k (e.withCoreOf s) = .next t)
    (hno : t.answer ≠ .noResult) (hstep : ¬ OfStepCommand t.answer) :
    ∃ u w, FirstAnswer f s u w t.answer ∧ SameCore t w := by
  induction k generalizing s with
  | zero => cases h; exact absurd hf.noResult hno
  | succ k ih =>
    obtain ⟨m, hm, ht⟩ := andThen_eq_next.mp h
    obtain ⟨v, hv, -⟩ := andThen_eq_next.mp ((hf.step_eq s).symm.trans hm)
    obtain ⟨w, hw, -⟩ := coreStep_of_sameCore (s := e.withCoreOf s) (u := s) (.refl s) hv
    cases ha : w.answerBy f with
    | none =>
      cases (hf.step_of_goesOn ⟨hw, ha⟩).symm.trans hm
      obtain ⟨u, x, hfirst, hcore⟩ := ih ht
      exact ⟨u, x, hfirst.head ⟨hw, ha⟩, hcore⟩
    | some r =>
      cases (hf.step_of_answer hw ha).symm.trans hm
      rcases machineRun_hostSteps (s := (e.withCoreOf w).finish r) ⟨rfl, hf.inbox⟩ ht with rfl | hans
      · exact ⟨s, w, ⟨.refl, hw, ha⟩, .refl w⟩
      · exact absurd hans hstep

end

/-! The start of the two commands. -/

/-- The core of `s` with a command begun and no host action waiting. -/
def State.begun (s : State) (activity : Activity) : State :=
  { s with answer := .noResult, activity := activity, inbox := [] }

theorem run_performs (s : State) : Performs runAnswers (s.begun .run) where
  noResult := rfl
  inbox := rfl
  step_eq u := by
    rw [step_of_inbox_nil rfl, if_neg nofun]
    exact congrArg (andThen _) (funext fun t => congrArg _ (judgeRun_eq_judgedBy t))

theorem firstOutput_performs (s : State) : Performs firstAnswers (s.begun .firstOutput) where
  noResult := rfl
  inbox := rfl
  step_eq u := by
    rw [step_of_inbox_nil rfl, if_neg nofun]
    exact congrArg (andThen _) (funext fun t => congrArg _ (judgeFirst_eq_judgedBy t))

section
variable {s : State} {p : List Byte} {a b c : Nat} (hidle : s.activity = .idle)
  (hr : launchRefusal s.build p.length a b c = none)
include hidle hr

theorem step_begins_run (hin : s.inbox = [.issue (.run p a b c)]) :
    step s = .next ((s.launch p a b c).begun .run) := by
  rw [step_of_issue_idle hin hidle]
  simp only [accept, hr, startWith]
  rfl

theorem step_begins_firstOutput (hin : s.inbox = [.issue (.runUntilFirstOutput p a b c)]) :
    step s = .next ((s.launch p a b c).begun .firstOutput) := by
  rw [step_of_issue_idle hin hidle]
  simp only [accept, hr, startWith]
  rfl

end

section
variable {f : Answers} {activity : Activity} {s l : State} (hs : step s = .next (l.begun activity))
  (hf : Performs f (l.begun activity))
include hs hf

/-- A machine that begins the command on the core of `l` comes to the first answer along its steps. -/
theorem machineRun_begun_of_firstAnswer {u t : State} {r : Answer} (h : FirstAnswer f l u t r) :
    ∃ k, machineRun k s = .next (((l.begun activity).withCoreOf t).finish r) := by
  obtain ⟨k, hk⟩ := hf.machineRun_of_firstAnswer h
  exact ⟨k + 1, andThen_eq_next.mpr ⟨_, hs, hk⟩⟩

theorem firstAnswer_of_machineRun_begun {k : Nat} {t : State} (h : machineRun (k + 1) s = .next t)
    (hno : t.answer ≠ .noResult) (hstep : ¬ OfStepCommand t.answer) :
    ∃ u w, FirstAnswer f l u w t.answer ∧ SameCore t w := by
  obtain ⟨m, hm, ht⟩ := andThen_eq_next.mp h
  cases hs.symm.trans hm
  exact hf.firstAnswer_of_machineRun (s := l) ht hno hstep

end

end Sys2Proof.Machine
end

section
/-! PROOF. `run` and `run_until_first_output` (spec/45_run_commands.md R151 to R153): which states the core's steps
reach without an answer, and what the first answer is. -/

namespace Sys2Proof.Machine

open Relation (ReflTransGen)

/-- A command that answers Halt and every fault. -/
def StopsAtEnds (f : Answers) : Prop :=
  (∀ out, f .halt out ≠ none) ∧ ∀ cause fpc fval out, f (.fault cause fpc fval) out ≠ none

theorem runAnswers_stopsAtEnds : StopsAtEnds runAnswers := ⟨nofun, nofun⟩

theorem firstAnswers_stopsAtEnds : StopsAtEnds firstAnswers := ⟨nofun, nofun⟩

theorem GoesOn.live {f : Answers} (hf : StopsAtEnds f) {s t : State} (hs : s.Live) (h : GoesOn f s t) : t.Live := by
  obtain ⟨hstep, hnone⟩ := h
  have hl : t.launched = true := (coreStep_sameSurroundings hstep).launched_eq ▸ hs.1
  cases coreStep_outcome hs.2 hstep with
  | continues _ hk _ => exact ⟨hl, hk⟩
  | output _ _ hk _ => exact ⟨hl, hk⟩
  | halted _ ht => exact absurd (ht ▸ hnone) (hf.1 _)
  | faulted hres _ _ => exact absurd ((answerBy_of_sres f hres).symm.trans hnone) (hf.2 _ _ _ _)

theorem GoesOn.out_eq {s t : State} (hs : s.Live) (h : GoesOn firstAnswers s t) : t.out = s.out := by
  obtain ⟨hstep, hnone⟩ := h
  cases coreStep_outcome hs.2 hstep with
  | continues _ _ hout => exact hout
  | output v hres _ _ => cases (answerBy_of_sres firstAnswers hres).symm.trans hnone
  | halted _ ht => rw [ht, State.returns_out]
  | faulted _ _ hout => exact hout

theorem live_of_goesOn {f : Answers} (hf : StopsAtEnds f) {s u : State} (hs : s.Live)
    (h : ReflTransGen (GoesOn f) s u) : u.Live :=
  invariant_of_goesOn (fun _ _ hv hvw => hvw.live hf hv) hs h

/-! `run`. -/

/-- `run` is answered at a halted core's step, with OUT, or at the step that faults; every later step keeps either. -/
theorem FirstAnswer.run_cases {s u t : State} {r : Answer} (h : FirstAnswer runAnswers s u t r) (hs : s.Live) :
    coreStep t = .next t ∧
    (u.status = .halt ∧ t = u.returns .halt ∧ r = .runOk u.out ∨
     t.fcause ≠ .noFault ∧ r = .runFault t.fcause t.fpc t.fval t.out) := by
  obtain ⟨hgo, hstep, hr⟩ := h
  have hu := live_of_goesOn runAnswers_stopsAtEnds hs hgo
  cases coreStep_outcome hu.2 hstep with
  | continues hres _ _ => cases (answerBy_of_sres runAnswers hres).symm.trans hr
  | output _ hres _ _ => cases (answerBy_of_sres runAnswers hres).symm.trans hr
  | halted hpc ht =>
    subst ht
    cases hr
    exact ⟨coreStep_returns_halt hu.2 hpc, .inl ⟨(status_eq_halt_iff u).mpr ⟨hu, hpc⟩, rfl, rfl⟩⟩
  | faulted hres hk _ =>
    cases (answerBy_of_sres runAnswers hres).symm.trans hr
    exact ⟨coreStep_of_fault_returned hk hres, .inr ⟨hk, rfl⟩⟩

theorem goesOn_or_run_answered {n : Nat} {s u : State} (hs : s.Live) (h : coreSteps n s = .next u) :
    ReflTransGen (GoesOn runAnswers) s u ∨ ∃ v r, FirstAnswer runAnswers s v u r := by
  rcases goesOn_or_firstAnswer runAnswers h with hgo | ⟨v, t, r, m, hfirst, hm⟩
  · exact .inl hgo
  · cases eq_of_coreSteps_of_fixed (hfirst.run_cases hs).1 hm
    exact .inr ⟨v, r, hfirst⟩

theorem run_answers_halt {n : Nat} {s u : State} (hs : s.Live) (h : coreSteps n s = .next u) (hu : u.status = .halt) :
    ∃ v t, FirstAnswer runAnswers s v t (.runOk u.out) := by
  obtain ⟨⟨-, hk⟩, hpc⟩ := (status_eq_halt_iff u).mp hu
  rcases goesOn_or_run_answered hs h with hgo | ⟨v, r, hfirst⟩
  · exact ⟨u, u.returns .halt, hgo, coreStep_of_halted hk hpc, rfl⟩
  · rcases (hfirst.run_cases hs).2 with ⟨-, rfl, rfl⟩ | ⟨hfault, -⟩
    · exact ⟨v, _, hfirst⟩
    · exact absurd hk hfault

theorem run_answers_fault {n : Nat} {s u : State} (hs : s.Live) (h : coreSteps n s = .next u) (hu : u.status = .fault) :
    ∃ v, FirstAnswer runAnswers s v u (.runFault u.fcause u.fpc u.fval u.out) := by
  obtain ⟨-, hk⟩ := (status_eq_fault_iff u).mp hu
  rcases goesOn_or_run_answered hs h with hgo | ⟨v, r, hfirst⟩
  · exact absurd (live_of_goesOn runAnswers_stopsAtEnds hs hgo).2 hk
  · rcases (hfirst.run_cases hs).2 with ⟨hv, rfl, -⟩ | ⟨-, rfl⟩
    · exact absurd ((status_eq_halt_iff v).mp hv).1.2 hk
    · exact ⟨v, hfirst⟩

/-- Settles O55: the machine hands over the first answer along the core's steps, and that is at their end. -/
theorem runCommandIsItsCoreSteps : Obligations.RunCommandIsItsCoreSteps := by
  intro s program a b c hidle hin hr
  have hbegin := step_begins_run hidle hr hin
  have hperf := run_performs (s.launch program a b c)
  have hlive := launch_live s program a b c
  refine ⟨fun n u h hu => ?halts, fun n u h hu => ?faults, fun k t outs h hans => ?onlyThen⟩
  case halts =>
    obtain ⟨v, t, hfirst⟩ := run_answers_halt hlive h hu
    obtain ⟨k, hk⟩ := machineRun_begun_of_firstAnswer hbegin hperf hfirst
    exact ⟨k, _, hk, rfl, rfl⟩
  case faults =>
    obtain ⟨v, hfirst⟩ := run_answers_fault hlive h hu
    obtain ⟨k, hk⟩ := machineRun_begun_of_firstAnswer hbegin hperf hfirst
    exact ⟨k, _, hk, rfl, rfl⟩
  case onlyThen =>
    obtain ⟨u, w, hfirst, -⟩ := firstAnswer_of_machineRun_begun hbegin hperf h (hans ▸ nofun) (hans ▸ nofun)
    obtain ⟨n, hn⟩ := exists_coreSteps_of_goesOn hfirst.goesOn
    rcases (hfirst.run_cases hlive).2 with ⟨hu, -, hok⟩ | ⟨-, hfault⟩
    · exact ⟨n, u, hn, hu, (Answer.runOk.inj (hans.symm.trans hok)).symm⟩
    · cases hans.symm.trans hfault

/-! `run_until_first_output`. -/

/-- Where `run_until_first_output` stands before its answer: running, with nothing emitted. -/
def State.Silent (s : State) : Prop := s.Live ∧ s.out = []

theorem silent_of_goesOn {s u : State} (hs : s.Silent) (h : ReflTransGen (GoesOn firstAnswers) s u) : u.Silent :=
  invariant_of_goesOn
    (fun _ _ hv hvw => ⟨hvw.live firstAnswers_stopsAtEnds hv.1, (hvw.out_eq hv.1).trans hv.2⟩) hs h

/-- The answer is the first output, or, with nothing emitted, None at a halted core's step or the fault, and every later
step keeps these two. -/
theorem FirstAnswer.first_cases {s u t : State} {r : Answer} (h : FirstAnswer firstAnswers s u t r) (hs : s.Silent) :
    (∃ v, r = .firstOk (some v) ∧ t.sres = some (.output v) ∧ t.out = [v]) ∨
    coreStep t = .next t ∧
      (r = .firstOk none ∧ u.status = .halt ∧ t = u.returns .halt ∨
       r = .firstFault t.fcause t.fpc t.fval ∧ t.status = .fault ∧ t.out = []) := by
  obtain ⟨hgo, hstep, hr⟩ := h
  obtain ⟨hu, hempty⟩ := silent_of_goesOn hs hgo
  cases coreStep_outcome hu.2 hstep with
  | continues hres _ _ => cases (answerBy_of_sres firstAnswers hres).symm.trans hr
  | output v hres _ hout =>
    cases (answerBy_of_sres firstAnswers hres).symm.trans hr
    exact .inl ⟨v, rfl, hres, by rw [hout, hempty, List.nil_append]⟩
  | halted hpc ht =>
    subst ht
    cases hr
    exact .inr ⟨coreStep_returns_halt hu.2 hpc, .inl ⟨rfl, (status_eq_halt_iff u).mpr ⟨hu, hpc⟩, rfl⟩⟩
  | faulted hres hk hout =>
    cases (answerBy_of_sres firstAnswers hres).symm.trans hr
    have hl : t.launched = true := (coreStep_sameSurroundings hstep).launched_eq ▸ hu.1
    exact .inr ⟨coreStep_of_fault_returned hk hres,
      .inr ⟨rfl, (status_eq_fault_iff t).mpr ⟨hl, hk⟩, hout.trans hempty⟩⟩

theorem FirstAnswer.output {s u t : State} {v : Oct} (h : FirstAnswer firstAnswers s u t (.firstOk (some v)))
    (hs : s.Silent) : t.sres = some (.output v) ∧ t.out = [v] := by
  rcases h.first_cases hs with ⟨v', hv, hres, hout⟩ | ⟨-, ⟨hv, -⟩ | ⟨hv, -⟩⟩
  · cases hv; exact ⟨hres, hout⟩
  all_goals cases hv

/-- While nothing is emitted, a run goes on, or has stopped where the command was answered. -/
theorem goesOn_or_first_answered {n : Nat} {s u : State} (hs : s.Silent) (h : coreSteps n s = .next u)
    (hout : u.out = []) :
    ReflTransGen (GoesOn firstAnswers) s u ∨ coreStep u = .next u ∧ ∃ v r, FirstAnswer firstAnswers s v u r := by
  rcases goesOn_or_firstAnswer firstAnswers h with hgo | ⟨v, t, r, m, hfirst, hm⟩
  · exact .inl hgo
  · rcases hfirst.first_cases hs with ⟨o, -, -, ho⟩ | ⟨hfixed, -⟩
    · have hpre : [o] <+: [] := ho ▸ hout ▸ coreSteps_out_prefix hm
      cases List.prefix_nil.mp hpre
    · cases eq_of_coreSteps_of_fixed hfixed hm
      exact .inr ⟨hfixed, v, r, hfirst⟩

theorem first_answers_output {n : Nat} {s u w : State} {v : Oct} (hs : s.Silent) (h : coreSteps n s = .next u)
    (hout : u.out = []) (hw : coreStep u = .next w) (hres : w.sres = some (.output v)) :
    ∃ x, FirstAnswer firstAnswers s x w (.firstOk (some v)) := by
  have hans : w.answerBy firstAnswers = some (.firstOk (some v)) := answerBy_of_sres firstAnswers hres
  rcases goesOn_or_first_answered hs h hout with hgo | ⟨hfixed, x, r, hfirst⟩
  · exact ⟨u, hgo, hw, hans⟩
  · cases hfixed.symm.trans hw
    exact ⟨x, hfirst.goesOn, hfirst.step, hans⟩

theorem first_answers_halt {n : Nat} {s u : State} (hs : s.Silent) (h : coreSteps n s = .next u) (hout : u.out = [])
    (hu : u.status = .halt) : ∃ v t, FirstAnswer firstAnswers s v t (.firstOk none) := by
  obtain ⟨⟨-, hk⟩, hpc⟩ := (status_eq_halt_iff u).mp hu
  rcases goesOn_or_first_answered hs h hout with hgo | ⟨-, v, r, hfirst⟩
  · exact ⟨u, u.returns .halt, hgo, coreStep_of_halted hk hpc, rfl⟩
  · rcases hfirst.first_cases hs with ⟨o, -, -, ho⟩ | ⟨-, ⟨rfl, -, -⟩ | ⟨-, hfault, -⟩⟩
    · cases ho.symm.trans hout
    · exact ⟨v, u, hfirst⟩
    · cases hu.symm.trans hfault

theorem first_answers_fault {n : Nat} {s u : State} (hs : s.Silent) (h : coreSteps n s = .next u) (hout : u.out = [])
    (hu : u.status = .fault) : ∃ v, FirstAnswer firstAnswers s v u (.firstFault u.fcause u.fpc u.fval) := by
  obtain ⟨-, hk⟩ := (status_eq_fault_iff u).mp hu
  rcases goesOn_or_first_answered hs h hout with hgo | ⟨-, v, r, hfirst⟩
  · exact absurd (silent_of_goesOn hs hgo).1.2 hk
  · rcases hfirst.first_cases hs with ⟨o, -, -, ho⟩ | ⟨-, ⟨-, hv, rfl⟩ | ⟨rfl, -, -⟩⟩
    · cases ho.symm.trans hout
    · exact absurd ((status_eq_halt_iff v).mp hv).1.2 hk
    · exact ⟨v, hfirst⟩

/-- Settles O56: the machine hands over the first answer along the core's steps, and each kind has its one cause. -/
theorem firstOutputCommandStopsAtTheFirst : Obligations.FirstOutputCommandStopsAtTheFirst := by
  intro s program a b c hidle hin hr
  have hbegin := step_begins_firstOutput hidle hr hin
  have hperf := firstOutput_performs (s.launch program a b c)
  have hsilent : (s.launch program a b c).Silent := ⟨launch_live s program a b c, rfl⟩
  refine ⟨fun n u w v h hout hw hres => ?outputs, fun n u h hout hu => ?halts, fun n u h hout hu => ?faults,
    fun k t v h hans => ?onlyAtOutput, fun k t h hans => ?onlyAtHalt, fun k t cause fpc fval h hans => ?onlyAtFault⟩
  case outputs =>
    obtain ⟨x, hfirst⟩ := first_answers_output hsilent h hout hw hres
    obtain ⟨k, hk⟩ := machineRun_begun_of_firstAnswer hbegin hperf hfirst
    exact ⟨k, _, hk, rfl, rfl, (hfirst.output hsilent).2, .refl w⟩
  case halts =>
    obtain ⟨v, t, hfirst⟩ := first_answers_halt hsilent h hout hu
    obtain ⟨k, hk⟩ := machineRun_begun_of_firstAnswer hbegin hperf hfirst
    exact ⟨k, _, hk, rfl, rfl⟩
  case faults =>
    obtain ⟨v, hfirst⟩ := first_answers_fault hsilent h hout hu
    obtain ⟨k, hk⟩ := machineRun_begun_of_firstAnswer hbegin hperf hfirst
    exact ⟨k, _, hk, rfl, rfl⟩
  case onlyAtOutput =>
    obtain ⟨u, w, hfirst, hcore⟩ := firstAnswer_of_machineRun_begun hbegin hperf h (hans ▸ nofun) (hans ▸ nofun)
    obtain ⟨n, hn⟩ := exists_coreSteps_of_goesOn hfirst.goesOn
    have hres := ((hans ▸ hfirst).output hsilent).1
    exact ⟨n, u, w, hn, (silent_of_goesOn hsilent hfirst.goesOn).2, hfirst.step, hres, hcore⟩
  case onlyAtHalt =>
    obtain ⟨u, w, hfirst, -⟩ := firstAnswer_of_machineRun_begun hbegin hperf h (hans ▸ nofun) (hans ▸ nofun)
    obtain ⟨n, hn⟩ := exists_coreSteps_of_goesOn hfirst.goesOn
    refine ⟨n, u, hn, (silent_of_goesOn hsilent hfirst.goesOn).2, ?_⟩
    rcases hfirst.first_cases hsilent with ⟨v', hv, -⟩ | ⟨-, ⟨-, hu, -⟩ | ⟨hv, -⟩⟩
    · cases hans.symm.trans hv
    · exact hu
    · cases hans.symm.trans hv
  case onlyAtFault =>
    obtain ⟨u, w, hfirst, -⟩ := firstAnswer_of_machineRun_begun hbegin hperf h (hans ▸ nofun) (hans ▸ nofun)
    obtain ⟨n, hn⟩ := exists_coreSteps_of_goesOn hfirst.goesOn
    rcases hfirst.first_cases hsilent with ⟨v', hv, -⟩ | ⟨-, ⟨hv, -⟩ | ⟨hv, hw, hout⟩⟩
    · cases hans.symm.trans hv
    · cases hans.symm.trans hv
    · cases hans.symm.trans hv
      exact ⟨n + 1, w, coreSteps_succ_of_coreStep hn hfirst.step, hout, hw, rfl, rfl, rfl⟩

end Sys2Proof.Machine
end

section
/-! PROOF. The loops of the search (spec/46_seed_search.md R172): one equation of the machine's step for each place of
them and for each result of a trial's step. -/

namespace Sys2Proof.Machine

/-! A step of the machine while a search is in progress. -/

theorem step_of_active {s : State} {activity : Activity} (hin : s.inbox = []) (ha : s.activity = activity)
    (hbusy : activity ≠ .idle) : step s = advance s := by
  rw [step_of_inbox_nil hin, if_neg (ha ▸ hbusy)]

section
variable {s : State} (hin : s.inbox = [])
include hin

theorem step_of_seedRound (ha : s.activity = .seedRound) : step s = seedRoundStep s := by
  rw [step_of_active hin ha nofun, advance, ha]

theorem step_of_seedNext {e : Byte} {todo next : List Nat} (ha : s.activity = .seedNext e todo next) :
    step s = seedNextStep e todo next s := by
  rw [step_of_active hin ha nofun, advance, ha]

theorem step_of_seedTrial {e : Byte} {p' : Nat} {todo next : List Nat} {u : State}
    (ha : s.activity = .seedTrial e p' todo next) (hu : coreStep s = .next u) :
    step s = .next (judgeTrial e p' todo next u) := by
  rw [step_of_active hin ha nofun, advance, ha]
  simp only [seedTrialStep, hu, andThen_next]

end

/-! The loop heads. -/

theorem seedRoundStep_of_lt {s : State} {e : Byte} (hr : s.round < s.len) (he : s.cell (s.len - 1 - s.round) = some e) :
    seedRoundStep s = .next (s.goTo (.seedNext e (expand s.cand) [])) := by
  simp only [seedRoundStep, if_pos hr, he]

theorem seedRoundStep_of_le {s : State} (hr : s.len ≤ s.round) :
    seedRoundStep s = .next (({ s with seed := s.cand.min? } : State).finish (.seedOk s.cand.min?)) :=
  if_neg (not_lt.mpr hr)

theorem endRound_of_ne_nil (s : State) {next : List Nat} (h : next ≠ []) :
    endRound s next = ({ s with cand := next, round := s.round + 1 } : State).goTo .seedRound :=
  if_neg h

theorem seedNextStep_of_accepted {s : State} {p' : Nat} (e : Byte) (todo next : List Nat)
    (hr : launchRefusal s.build s.len p' 0 0 = none) :
    seedNextStep e (p' :: todo) next s = .next ((s.startRun p' 0 0).goTo (.seedTrial e p' todo next)) := by
  simp only [seedNextStep, hr]

/-- Settles O48, loop head by loop head. -/
theorem loopsOfTheSearch : Obligations.LoopsOfTheSearch := by
  intro s hin
  refine ⟨fun e ha hr he => ?target, fun ha hr => ?answer, fun e p' todo next ha hr => ?trial,
    fun e next ha hne => ?roundEnd, fun e ha => ?emptyStore, rfl⟩
  case target => rw [step_of_seedRound hin ha, seedRoundStep_of_lt hr he]; rfl
  case answer => rw [step_of_seedRound hin ha, seedRoundStep_of_le hr]; rfl
  case trial => rw [step_of_seedNext hin ha, seedNextStep_of_accepted e todo next hr]; rfl
  case roundEnd => rw [step_of_seedNext hin ha, seedNextStep, endRound_of_ne_nil s hne]; rfl
  case emptyStore => rw [step_of_seedNext hin ha]; rfl

/-! The step of a trial. -/

section
variable {u : State} (e : Byte) (p' : Nat) (todo next : List Nat)

theorem stepResult_of_sres {r : StepResult} (h : u.sres = some r) : u.stepResult = r := by
  rw [State.stepResult, h, Option.getD_some]

/-- Where no step was made, the result reads as Continue. -/
theorem sres_of_stepResult {u : State} {r : StepResult} (h : u.stepResult = r) (hr : r ≠ .continues) :
    u.sres = some r := by
  cases hres : u.sres with
  | none => exact absurd (h.symm.trans (by rw [State.stepResult, hres]; rfl)) hr
  | some r' => rw [← h, stepResult_of_sres hres]

/-- A store within CANDCAP goes into the next trial (R186). -/
theorem afterTrial_of_within (h : withinCap next.length u.build.candcap = true) :
    afterTrial e todo next u = u.goTo (.seedNext e todo next) :=
  if_pos h

theorem afterTrial_of_overflow (h : withinCap next.length u.build.candcap = false) :
    afterTrial e todo next u = u.finish (.seedOverflow u.round) :=
  if_neg (h ▸ Bool.false_ne_true)

theorem judgeTrial_of_continues (h : u.stepResult = .continues) : judgeTrial e p' todo next u = u := by
  simp only [judgeTrial, h]

theorem judgeTrial_of_output {v : Oct} (h : u.stepResult = .output v) :
    judgeTrial e p' todo next u = afterTrial e todo (if v.toNat = e.toNat then next ++ [p'] else next) u := by
  simp only [judgeTrial, h]

theorem judgeTrial_of_halt (h : u.stepResult = .halt) :
    judgeTrial e p' todo next u = afterTrial e todo next { u with shape := true } := by
  simp only [judgeTrial, h]

theorem judgeTrial_of_fault {k : FCause} {p : Nat} {v : Byte} (h : u.stepResult = .fault k p v) :
    judgeTrial e p' todo next u = u.finish (.seedFault k p v u.round p') := by
  simp only [judgeTrial, h]

end

theorem withinCap_iff (n : Nat) (cap : Option Nat) :
    withinCap n cap = true ↔ cap = none ∨ ∃ m, cap = some m ∧ n ≤ m := by
  cases cap <;> simp [withinCap]

/-- A step that returns an output executed an `out`, which leaves the latch alone. -/
theorem latch_eq_of_output {s u : State} {v : Oct} (h : coreStep s = .next u) (hres : u.sres = some (.output v)) :
    u.fcause = s.fcause ∧ u.fpc = s.fpc ∧ u.fval = s.fval := by
  rcases coreStep_executes_or_stops h with ⟨_, _, i, -, -, -, rfl⟩ | ⟨_, _, _, r, hr, rfl⟩
  · exact effect_keeps_latch i s
  · exact absurd (Option.some.inj hres) (hr v)

/-- Settles O47, result by result. -/
theorem whatATrialStepMeans : Obligations.WhatATrialStepMeans := by
  intro s u e p' todo next hin ha hu
  have hround : u.round = s.round := (coreStep_sameSearch hu).2.1
  have hbuild : u.build = s.build := (coreStep_sameSurroundings hu).build_eq.symm
  rw [step_of_seedTrial hin ha hu, ← hround, ← hbuild]
  refine ⟨fun hres => ?goesOn, fun v nxt hres hnxt => ⟨fun hcap => ?kept, fun m hm hlt => ?overflow⟩,
    fun hres hcap => ?pruned, fun k p v hres => ?faulted⟩
  case goesOn => rw [judgeTrial_of_continues e p' todo next (stepResult_of_sres hres)]
  case kept =>
    rw [judgeTrial_of_output e p' todo next (stepResult_of_sres hres), ← hnxt,
      afterTrial_of_within e todo nxt ((withinCap_iff _ _).mpr hcap)]
    rfl
  case overflow =>
    have hfull : withinCap nxt.length u.build.candcap = false := (withinCap_eq_false_iff _ _).mpr ⟨m, hm, hlt⟩
    rw [judgeTrial_of_output e p' todo next (stepResult_of_sres hres), ← hnxt, afterTrial_of_overflow e todo nxt hfull]
    exact ⟨rfl, latch_eq_of_output hu hres⟩
  case pruned =>
    rw [judgeTrial_of_halt e p' todo next (stepResult_of_sres hres),
      afterTrial_of_within (u := { u with shape := true }) e todo next hcap]
    rfl
  case faulted => rw [judgeTrial_of_fault e p' todo next (stepResult_of_sres hres)]; rfl

/-! The start. -/

theorem step_begins_search {s : State} {p : List Byte} (hidle : s.activity = .idle)
    (hin : s.inbox = [.issue (.findMinimalSeed p)]) (hr : launchRefusal s.build p.length 0 0 0 = none) :
    step s = .next (({ s with inbox := [] } : State).startSearch p) := by
  rw [step_of_issue_idle hin hidle]
  simp only [accept, hr, startWith]

/-- Settles O49: the search begins, and no round is run. -/
theorem searchOfTheEmptyProgram : Obligations.SearchOfTheEmptyProgram := by
  intro s hidle hin hr
  have hstart := step_begins_search hidle hin hr
  have hend : step (({ s with inbox := [] } : State).startSearch []) = .next _ :=
    (step_of_seedRound rfl rfl).trans (seedRoundStep_of_le (Nat.zero_le _))
  exact ⟨_, andThen_eq_next.mpr ⟨_, hstart, andThen_eq_next.mpr ⟨_, hend, rfl⟩⟩, rfl, rfl, rfl, rfl, rfl, rfl⟩

end Sys2Proof.Machine
end

section
/-! PROOF. All that a step of the machine can do to a search, said once (spec/46_seed_search.md R172). -/

namespace Sys2Proof.Machine

/-- No search is in progress. -/
def State.OutsideSearch (s : State) : Prop := s.activity ∈ [.idle, .run, .firstOutput, .verify]

theorem outsideSearch_of_idle {s : State} (h : s.activity = .idle) : s.OutsideSearch := by
  simp [State.OutsideSearch, h]

theorem State.OutsideSearch.of_activity_eq {s t : State} (hs : s.OutsideSearch) (h : t.activity = s.activity) :
    t.OutsideSearch := by
  rw [State.OutsideSearch, h]; exact hs

/-- How a search in progress moves on by itself. -/
inductive SearchMove (s t : State) : Prop where
  /-- the target of a round (R173) -/
  | targeted (e : Byte) (ha : s.activity = .seedRound) (hr : s.round < s.len)
      (he : s.cell (s.len - 1 - s.round) = some e) (ht : t = s.goTo (.seedNext e (expand s.cand) []))
  /-- the answer after the last round (R181) -/
  | answered (ha : s.activity = .seedRound) (hr : s.len ≤ s.round)
      (ht : t = ({ s with seed := s.cand.min? } : State).finish (.seedOk s.cand.min?))
  /-- the end of a round without survivors (R180) -/
  | emptied (e : Byte) (ha : s.activity = .seedNext e [] [])
      (ht : t = ({ s with cand := [], round := s.round + 1, seed := none } : State).finish (.seedOk none))
  /-- the end of any other round -/
  | roundEnded (e : Byte) (next : List Nat) (ha : s.activity = .seedNext e [] next) (hne : next ≠ [])
      (ht : t = ({ s with cand := next, round := s.round + 1 } : State).goTo .seedRound)
  /-- the launch of a trial (R175) -/
  | launched (e : Byte) (p' : Nat) (todo next : List Nat) (ha : s.activity = .seedNext e (p' :: todo) next)
      (ht : t = (s.startRun p' 0 0).goTo (.seedTrial e p' todo next))
  /-- a trial goes on -/
  | continued (e : Byte) (p' : Nat) (todo next : List Nat) (ha : s.activity = .seedTrial e p' todo next)
      (hu : coreStep s = .next t) (hres : t.stepResult = .continues)
  /-- a trial outputs (R176, R177) -/
  | output (e : Byte) (p' : Nat) (todo next : List Nat) (u : State) (v : Oct)
      (ha : s.activity = .seedTrial e p' todo next) (hu : coreStep s = .next u) (hres : u.stepResult = .output v)
      (ht : t = u.goTo (.seedNext e todo (if v.toNat = e.toNat then next ++ [p'] else next)))
  /-- a trial halts (R178) -/
  | pruned (e : Byte) (p' : Nat) (todo next : List Nat) (u : State) (ha : s.activity = .seedTrial e p' todo next)
      (hu : coreStep s = .next u) (hres : u.stepResult = .halt)
      (ht : t = ({ u with shape := true } : State).goTo (.seedNext e todo next))
  /-- a fault, a full store or a refused launch ends the search (R179, R186; log 13) -/
  | failed (hcand : t.cand = s.cand) (hround : t.round = s.round) (hseed : t.seed = s.seed)
      (hinbox : t.inbox = s.inbox) (hidle : t.activity = .idle) (hans : ∀ o, t.answer ≠ .seedOk o)

/-- After a trial's step `u`, an answer that is no seed ends the search as failed. -/
theorem SearchMove.failed_of_coreStep {s u t : State} {r : Answer} (hu : coreStep s = .next u)
    (hsearch : t.cand = u.cand ∧ t.round = u.round ∧ t.seed = u.seed ∧ t.inbox = u.inbox)
    (hr : ∀ o, r ≠ .seedOk o) : SearchMove s (t.finish r) := by
  obtain ⟨hcand, hround, -, hseed⟩ := coreStep_sameSearch hu
  obtain ⟨hc, hrd, hsd, hin⟩ := hsearch
  exact .failed (hc.trans hcand) (hrd.trans hround) (hsd.trans hseed)
    (hin.trans (coreStep_sameSurroundings hu).inbox_eq.symm) rfl hr

theorem judgeTrial_searchMove {s u : State} {e : Byte} {p' : Nat} {todo next : List Nat}
    (ha : s.activity = .seedTrial e p' todo next) (hu : coreStep s = .next u) :
    SearchMove s (judgeTrial e p' todo next u) := by
  cases hres : u.stepResult with
  | continues => rw [judgeTrial_of_continues e p' todo next hres]; exact .continued e p' todo next ha hu hres
  | output v =>
    rw [judgeTrial_of_output e p' todo next hres]
    rcases afterTrial_cases e todo (if v.toNat = e.toNat then next ++ [p'] else next) u with h | h
    · exact .output e p' todo next u v ha hu hres h
    · rw [h]; exact .failed_of_coreStep hu ⟨rfl, rfl, rfl, rfl⟩ nofun
  | halt =>
    rw [judgeTrial_of_halt e p' todo next hres]
    rcases afterTrial_cases e todo next { u with shape := true } with h | h
    · exact .pruned e p' todo next u ha hu hres h
    · rw [h]; exact .failed_of_coreStep hu ⟨rfl, rfl, rfl, rfl⟩ nofun
  | fault k p v =>
    rw [judgeTrial_of_fault e p' todo next hres]
    exact .failed_of_coreStep hu ⟨rfl, rfl, rfl, rfl⟩ nofun

theorem endRound_searchMove {s : State} {e : Byte} {next : List Nat} (ha : s.activity = .seedNext e [] next) :
    SearchMove s (endRound s next) := by
  by_cases hne : next = []
  · subst hne
    exact .emptied e ha rfl
  · exact .roundEnded e next ha hne (endRound_of_ne_nil s hne)

theorem advance_searchMove {s t : State} (hs : ¬ s.OutsideSearch) (h : advance s = .next t) : SearchMove s t := by
  rcases advance_cases h with ⟨ha, -⟩ | ⟨ha, -⟩ | ⟨ha, -⟩ | ⟨ha, hr, e, he, ht⟩ | ⟨ha, hr, ht⟩ | ⟨e, next, ha, rfl⟩ |
    ⟨e, p', todo, next, ha, ⟨why, -, rfl⟩ | ⟨-, ht⟩⟩ | ⟨e, p', todo, next, ha, u, hu, rfl⟩ | ⟨ha, -⟩
  · exact absurd (by simp [State.OutsideSearch, ha]) hs
  · exact absurd (by simp [State.OutsideSearch, ha]) hs
  · exact absurd (by simp [State.OutsideSearch, ha]) hs
  · exact .targeted e ha hr he ht
  · exact .answered ha hr ht
  · exact endRound_searchMove ha
  · exact .failed rfl rfl rfl rfl rfl nofun
  · exact .launched e p' todo next ha ht
  · exact judgeTrial_searchMove ha hu
  · exact absurd (by simp [State.OutsideSearch, ha]) hs

/-- A command that is no search goes on as itself or is over. -/
theorem advance_outsideSearch {s t : State} (hs : s.OutsideSearch) (h : advance s = .next t) : t.OutsideSearch := by
  have hcore {u : State} (hu : coreStep s = .next u) : u.OutsideSearch :=
    hs.of_activity_eq (coreStep_sameSurroundings hu).activity_eq.symm
  rcases advance_cases h with ⟨-, rfl⟩ | ⟨-, u, hu, rfl⟩ | ⟨-, u, hu, rfl⟩ | ⟨ha, -⟩ | ⟨ha, -⟩ |
    ⟨_, _, ha, -⟩ | ⟨_, _, _, _, ha, -⟩ | ⟨_, _, _, _, ha, -⟩ | ⟨-, u, hu, ht⟩
  · exact hs
  · rcases judgeRun_cases u with h | ⟨r, h⟩ <;> rw [h]
    · exact hcore hu
    · exact outsideSearch_of_idle rfl
  · rcases judgeFirst_cases u with h | ⟨r, h⟩ <;> rw [h]
    · exact hcore hu
    · exact outsideSearch_of_idle rfl
  · simp [State.OutsideSearch, ha] at hs
  · simp [State.OutsideSearch, ha] at hs
  · simp [State.OutsideSearch, ha] at hs
  · simp [State.OutsideSearch, ha] at hs
  · simp [State.OutsideSearch, ha] at hs
  · rcases judgeVerify_cases ht with ⟨-, rfl⟩ | ⟨_, _, -, -, -, -, rfl⟩ | ⟨_, _, -, -, -, -, rfl⟩ | ⟨_, -, -, rfl⟩ |
      ⟨_, -, -, -, rfl⟩ | ⟨-, -, rfl⟩ | ⟨_, _, _, -, rfl⟩
    · exact hcore hu
    · exact (hcore hu).of_activity_eq rfl
    all_goals exact outsideSearch_of_idle rfl

/-- A command taken begins a search, or leaves the search's state alone. -/
theorem accept_search_cases {cmd : Command} {s t : State} (hidle : s.activity = .idle) (h : accept cmd s = .next t) :
    (SameSearch t s ∧ t.OutsideSearch) ∨ ∃ p, t = s.startSearch p := by
  have hs := outsideSearch_of_idle hidle
  rcases accept_cases h with ⟨why, rfl⟩ | ⟨-, -, u, hu, rfl⟩ | ⟨p, a, b, c, -, ht⟩ | ⟨p, -, rfl⟩
  · exact .inl ⟨.refl s, hs.of_activity_eq rfl⟩
  · exact .inl ⟨(coreStep_sameSearch hu : SameSearch u s),
      hs.of_activity_eq (coreStep_sameSurroundings hu).activity_eq.symm⟩
  · left
    rcases ht with rfl | rfl | rfl | rfl
    · exact ⟨.refl s, hs.of_activity_eq rfl⟩
    all_goals exact ⟨.refl s, by simp [State.OutsideSearch, State.startVerify]⟩
  · exact .inr ⟨p, rfl⟩

/-- A step of the machine leaves the search's state alone, begins a search, refuses a command as Busy, or moves the
search in progress on. -/
theorem step_search_cases {s t : State} (h : step s = .next t) :
    (SameSearch t (popped s) ∧ t.OutsideSearch) ∨ (∃ p, t = (popped s).startSearch p) ∨
      t = (popped s).refuse .busy ∨ SearchMove (popped s) t := by
  rcases step_cases h with h | ⟨hidle, cmd, h, -⟩ | ⟨-, rfl⟩
  · by_cases hs : (popped s).OutsideSearch
    · exact .inl ⟨advance_sameSearch hs h, advance_outsideSearch hs h⟩
    · exact .inr (.inr (.inr (advance_searchMove hs h)))
  · rcases accept_search_cases (s := popped s) hidle h with hsame | hbegun
    · exact .inl hsame
    · exact .inr (.inl hbegun)
  · exact .inr (.inr (.inl rfl))

end Sys2Proof.Machine
end

section
/-! PROOF. The order of the search (spec/46_seed_search.md R174, R176, R181 to R183): CAND ascends and stays below
`8^ROUND`, because the values of a round ascend with their prefixes. -/

namespace Sys2Proof.Machine

/-! The values of a round. -/

theorem mem_expand {q : Nat} {cand : List Nat} : q ∈ expand cand ↔ q / 8 ∈ cand := by
  simp only [expand, List.mem_flatMap, List.mem_map, List.mem_range]
  constructor
  · rintro ⟨p, hp, d, hd, rfl⟩
    rwa [show (p * 8 + d) / 8 = p by omega]
  · exact fun h => ⟨q / 8, h, q % 8, by omega, by omega⟩

theorem expand_ascending {cand : List Nat} (h : cand.Pairwise (· < ·)) : (expand cand).Pairwise (· < ·) := by
  refine List.pairwise_flatMap.mpr ⟨fun p _ => ?digits, h.imp fun {p p'} hlt => ?prefixes⟩
  case digits => exact List.pairwise_lt_range.map _ fun d d' hlt => by omega
  case prefixes =>
    simp only [List.mem_map, List.mem_range]
    rintro _ ⟨d, hd, rfl⟩ _ ⟨d', -, rfl⟩
    omega

theorem lt_pow_succ_iff (q r : Nat) : q < 8 ^ (r + 1) ↔ q / 8 < 8 ^ r := by
  rw [pow_succ, Nat.div_lt_iff_lt_mul (by decide)]

/-- Strictly ascending values below `n` are at most `n` many. -/
theorem length_le_of_ascending {l : List Nat} {n : Nat} (hasc : l.Pairwise (· < ·)) (hlt : ∀ q ∈ l, q < n) :
    l.length ≤ n := by
  have hnodup : l.Nodup := hasc.imp Nat.ne_of_lt
  simpa using (hnodup.subperm fun q hq => List.mem_range.mpr (hlt q hq) : l.Subperm (List.range n)).length_le

/-! The round's place in the order. -/

/-- A value tried leaves NEXT as it was, or is appended to it. -/
theorem RoundOrder.tried {s : State} {e : Byte} {p' : Nat} {todo next nxt : List Nat}
    (h : RoundOrder s e (p' :: todo) next) (hnxt : nxt.Sublist (next ++ [p'])) : RoundOrder s e todo nxt := by
  obtain ⟨hr, he, hseed, tried, hexp, hsub⟩ := h
  exact ⟨hr, he, hseed, tried ++ [p'], by simp [hexp], hnxt.trans (hsub.append_right [p'])⟩

/-- At the end of a round NEXT is taken, in order, from all the round's values. -/
theorem RoundOrder.sublist_expand {s : State} {e : Byte} {next : List Nat} (h : RoundOrder s e [] next) :
    next.Sublist (expand s.cand) := by
  obtain ⟨-, -, -, tried, hexp, hsub⟩ := h
  rwa [hexp, List.append_nil]

/-! The invariant at each place of the search's loops. -/

section
variable {s t : State} (hs : s.SearchOrdered)
include hs

theorem State.SearchOrdered.at_seedRound (ha : s.activity = .seedRound) :
    s.round ≤ s.len ∧ s.cand ≠ [] ∧ s.seed = none := by
  simpa only [ha] using hs.atLoop

theorem State.SearchOrdered.at_seedNext {e : Byte} {todo next : List Nat} (ha : s.activity = .seedNext e todo next) :
    RoundOrder s e todo next := by
  simpa only [ha] using hs.atLoop

theorem State.SearchOrdered.at_seedTrial {e : Byte} {p' : Nat} {todo next : List Nat}
    (ha : s.activity = .seedTrial e p' todo next) : RoundOrder s e (p' :: todo) next := by
  simpa only [ha] using hs.atLoop

theorem State.SearchOrdered.length_le : s.cand.length ≤ 8 ^ s.round :=
  length_le_of_ascending hs.ascending hs.bounded

/-- Outside a search only CAND, ROUND and SEED count. -/
theorem State.SearchOrdered.outside (hcand : t.cand = s.cand) (hround : t.round = s.round) (hseed : t.seed = s.seed)
    (ht : t.OutsideSearch) : t.SearchOrdered where
  ascending := hcand ▸ hs.ascending
  bounded := by rw [hcand, hround]; exact hs.bounded
  seedLeast := by rw [hcand, hseed]; exact hs.seedLeast
  atLoop := by
    simp only [State.OutsideSearch, List.mem_cons, List.not_mem_nil, or_false] at ht
    rcases ht with ha | ha | ha | ha <;> simp only [ha]

theorem State.SearchOrdered.of_coreStep (h : coreStep s = .next t) : t.SearchOrdered := by
  obtain ⟨hcand, hround, -, hseed⟩ := coreStep_sameSearch h
  obtain ⟨hprog, hlen⟩ := coreStep_sameProgram h
  have ha := (coreStep_sameSurroundings h).activity_eq
  constructor
  case ascending => exact hcand ▸ hs.ascending
  case bounded => rw [hcand, hround]; exact hs.bounded
  case seedLeast => rw [hcand, hseed]; exact hs.seedLeast
  case atLoop => simpa only [RoundOrder, State.cell, hcand, hround, hseed, hprog, hlen, ha] using hs.atLoop

theorem State.SearchOrdered.coreStep_of_trial {e : Byte} {p' : Nat} {todo next : List Nat}
    (ha : s.activity = .seedTrial e p' todo next) (h : coreStep s = .next t) :
    t.SearchOrdered ∧ RoundOrder t e (p' :: todo) next :=
  have ht := hs.of_coreStep h
  ⟨ht, ht.at_seedTrial ((coreStep_sameSurroundings h).activity_eq.symm.trans ha)⟩

end

theorem startSearch_searchOrdered (s : State) (p : List Byte) : (s.startSearch p).SearchOrdered where
  ascending := List.pairwise_singleton _ _
  bounded := by simp [State.startSearch]
  seedLeast := nofun
  atLoop := ⟨Nat.zero_le _, List.cons_ne_nil _ _, rfl⟩

/-- What a round leaves becomes the store. -/
theorem State.SearchOrdered.roundEnded {s : State} {e : Byte} {next : List Nat} (hs : s.SearchOrdered)
    (ha : s.activity = .seedNext e [] next) (hne : next ≠ []) :
    (({ s with cand := next, round := s.round + 1 } : State).goTo .seedRound).SearchOrdered := by
  have hround := hs.at_seedNext ha
  have hsub := hround.sublist_expand
  obtain ⟨hlt, -, hseed, -⟩ := hround
  constructor
  case ascending => exact (expand_ascending hs.ascending).sublist hsub
  case bounded => exact fun q hq => (lt_pow_succ_iff q s.round).mpr (hs.bounded _ (mem_expand.mp (hsub.subset hq)))
  case seedLeast => exact fun a ha => nomatch hseed.symm.trans ha
  case atLoop => exact ⟨hlt, hne, hseed⟩

theorem SearchMove.searchOrdered {s t : State} (h : SearchMove s t) (hs : s.SearchOrdered) : t.SearchOrdered := by
  cases h with
  | targeted e ha hr he ht =>
    subst ht
    exact { hs with atLoop := ⟨hr, he, (hs.at_seedRound ha).2.2, [], rfl, .slnil⟩ }
  | answered ha hr ht =>
    subst ht
    exact { hs with seedLeast := fun a hmin => List.min?_eq_some_iff.mp hmin, atLoop := trivial }
  | emptied e ha ht =>
    subst ht
    exact { ascending := .nil, bounded := nofun, seedLeast := nofun, atLoop := trivial }
  | roundEnded e next ha hne ht => exact ht ▸ hs.roundEnded ha hne
  | launched e p' todo next ha ht =>
    subst ht
    exact { hs with atLoop := hs.at_seedNext ha }
  | continued e p' todo next ha hu hres => exact hs.of_coreStep hu
  | output e p' todo next u v ha hu hres ht =>
    obtain ⟨hu', hround⟩ := hs.coreStep_of_trial ha hu
    subst ht
    refine { hu' with atLoop := hround.tried ?_ }
    split
    · exact .refl _
    · exact List.sublist_append_left next [p']
  | pruned e p' todo next u ha hu hres ht =>
    obtain ⟨hu', hround⟩ := hs.coreStep_of_trial ha hu
    subst ht
    exact { hu' with atLoop := hround.tried (List.sublist_append_left next [p']) }
  | failed hcand hround hseed _ hidle _ => exact hs.outside hcand hround hseed (outsideSearch_of_idle hidle)

/-- Settles O44: the order holds at a search's start and every move of a search keeps it; what is outside one leaves
CAND, ROUND and SEED alone. -/
theorem stepKeepsTheSearchOrdered : Obligations.StepKeepsTheSearchOrdered := by
  intro s t hs h
  have hpop : (popped s).SearchOrdered := { hs with }
  have ht : t.SearchOrdered := by
    rcases step_search_cases h with ⟨⟨hcand, hround, -, hseed⟩, hout⟩ | ⟨p, rfl⟩ | rfl | hmove
    · exact hpop.outside hcand hround hseed hout
    · exact startSearch_searchOrdered _ p
    · exact { hpop with }
    · exact hmove.searchOrdered hpop
  exact ⟨ht, ht.length_le⟩

end Sys2Proof.Machine
end

section
/-! PROOF. The trials (spec/46_seed_search.md R175): a run has at most one first output, and none after a halt; both
depend on the program alone. -/

namespace Sys2Proof.Machine

/-! Two runs from one state. -/

theorem coreSteps_add (m k : Nat) (s : State) : coreSteps (m + k) s = andThen (coreSteps m s) (coreSteps k) := by
  induction m generalizing s with
  | zero => rw [Nat.zero_add]; rfl
  | succ m ih =>
    rw [Nat.add_right_comm, coreSteps, coreSteps]
    cases coreStep s with
    | next u => simp only [andThen_next, ih]
    | fault r => rfl
    | refused r => rfl

/-- Of two runs from one state, the longer one goes on from the end of the shorter. -/
theorem coreSteps_later {m n : Nat} {s t u : State} (hmn : m ≤ n) (ht : coreSteps m s = .next t)
    (hu : coreSteps n s = .next u) : coreSteps (n - m) t = .next u := by
  rwa [← Nat.add_sub_cancel' hmn, coreSteps_add, ht, andThen_next] at hu

/-- A step that returns Halt is repeated by every later one, and emits nothing. -/
theorem coreStep_of_halt_returned {s u : State} (h : coreStep s = .next u) (hres : u.sres = some .halt) :
    coreStep u = .next u ∧ u.out = s.out := by
  have hk : s.fcause = .noFault := by
    by_contra hk
    cases (coreStep_of_faulted hk).symm.trans h
    cases hres
  have hpc := len_le_pc_of_halt hk h hres
  cases (coreStep_of_halted hk hpc).symm.trans h
  exact ⟨coreStep_returns_halt hk hpc, rfl⟩

/-! The first output. -/

theorem FirstOutput.unique {s : State} {p : Nat} {v w : Oct} (hv : FirstOutput s p v) (hw : FirstOutput s p w) :
    v = w := by
  obtain ⟨m, t, ht, hout⟩ := hv
  obtain ⟨n, u, hu, hout'⟩ := hw
  wlog hmn : m ≤ n generalizing v w m n t u
  · exact (this n u hu hout' m t ht hout (Nat.le_of_not_le hmn)).symm
  have hpre := coreSteps_out_prefix (coreSteps_later hmn ht hu)
  rw [hout, hout'] at hpre
  exact (List.cons_prefix_cons.mp hpre).1

/-- The core of `s` is that of the run from `A = p` on its own program, before any output. -/
def TrialRun (s : State) (p : Nat) : Prop := s.out = [] ∧ ∃ n, coreSteps n (s.startRun p 0 0) = .next s

/-- A run that halts before its first output has none. -/
theorem TrialRun.not_firstOutput {s u : State} {p : Nat} (hs : TrialRun s p) (h : coreStep s = .next u)
    (hres : u.sres = some .halt) (v : Oct) : ¬ FirstOutput s p v := by
  obtain ⟨hout, n, hn⟩ := hs
  obtain ⟨hfix, hout'⟩ := coreStep_of_halt_returned h hres
  rintro ⟨m, w, hw, hv⟩
  have hpre : w.out <+: u.out := by
    rcases Nat.le_total m (n + 1) with hmn | hnm
    · exact coreSteps_out_prefix (coreSteps_later hmn hw (coreSteps_succ_of_coreStep hn h))
    · cases eq_of_coreSteps_of_fixed hfix (coreSteps_later hnm (coreSteps_succ_of_coreStep hn h) hw)
      exact List.prefix_rfl
  simp [hv, hout', hout] at hpre

theorem SameProgram.withCoreOf_startRun {s t : State} (h : SameProgram t s) (p : Nat) :
    t.withCoreOf (s.startRun p 0 0) = t.startRun p 0 0 := by
  simp only [State.withCoreOf, State.startRun, ← h.1, ← h.2]

theorem SameProgram.firstOutput {s t : State} (h : SameProgram t s) {p : Nat} {v : Oct} (hs : FirstOutput s p v) :
    FirstOutput t p v := by
  obtain ⟨n, u, hu, hv⟩ := hs
  have ht := coreSteps_withCoreOf n t hu
  rw [h.withCoreOf_startRun] at ht
  exact ⟨n, _, ht, hv⟩

theorem SameProgram.symm {s t : State} (h : SameProgram t s) : SameProgram s t := ⟨h.1.symm, h.2.symm⟩

theorem SameProgram.firstOutput_iff {s t : State} (h : SameProgram t s) (p : Nat) (v : Oct) :
    FirstOutput t p v ↔ FirstOutput s p v :=
  ⟨h.symm.firstOutput, h.firstOutput⟩

theorem SameCore.sameProgram {t s : State} (h : SameCore t s) : SameProgram t s := by
  obtain ⟨-, -, -, -, -, -, -, -, hprog, hlen, -, -⟩ := h
  exact ⟨hprog, hlen⟩

/-- The steps made since a trial's launch are those of the same run on any machine with the same core. -/
theorem SameCore.coreSteps_startRun {s t u : State} (h : SameCore u t) {n p : Nat} (hs : SameProgram u s)
    (hn : coreSteps n (s.startRun p 0 0) = .next u) : coreSteps n (t.startRun p 0 0) = .next t := by
  have ht := coreSteps_withCoreOf n t hn
  rwa [withCoreOf_eq_of_sameCore h, (h.sameProgram.symm.trans hs).withCoreOf_startRun] at ht

theorem TrialRun.of_sameCore {s t : State} {p : Nat} (hs : TrialRun s p) (h : SameCore s t) : TrialRun t p := by
  obtain ⟨hout, n, hn⟩ := hs
  have hn' := h.coreSteps_startRun (.refl s) hn
  obtain ⟨-, -, -, -, -, -, -, -, -, -, hsame, -⟩ := h
  exact ⟨hsame ▸ hout, n, hn'⟩

/-- The steps of a trial after one more step. -/
theorem TrialRun.coreSteps_succ {s u : State} {p : Nat} (hs : TrialRun s p) (h : coreStep s = .next u) :
    ∃ n, coreSteps n (u.startRun p 0 0) = .next u := by
  obtain ⟨-, n, hn⟩ := hs
  exact ⟨n + 1, (SameCore.refl u).coreSteps_startRun (coreStep_sameProgram h) (coreSteps_succ_of_coreStep hn h)⟩

theorem startRun_trialRun (s : State) (p : Nat) (activity : Activity) :
    TrialRun ((s.startRun p 0 0).goTo activity) p :=
  ⟨rfl, 0, rfl⟩

/-- A step of a trial that goes on emits nothing. -/
theorem TrialRun.continued {s u : State} {p : Nat} (hs : TrialRun s p) (h : coreStep s = .next u)
    (hres : u.stepResult = .continues) : TrialRun u p := by
  rcases outputIsAppendOnly s u h with ⟨v, hv, -⟩ | ⟨-, hout⟩
  · cases (stepResult_of_sres hv).symm.trans hres
  · exact ⟨hout.trans hs.1, hs.coreSteps_succ h⟩

/-- The output that ends a trial is its run's first. -/
theorem TrialRun.firstOutput {s u : State} {p : Nat} {v : Oct} (hs : TrialRun s p) (h : coreStep s = .next u)
    (hres : u.stepResult = .output v) : FirstOutput u p v := by
  have hsres := sres_of_stepResult hres nofun
  rcases outputIsAppendOnly s u h with ⟨w, hw, hout⟩ | ⟨hno, -⟩
  · cases hsres.symm.trans hw
    obtain ⟨n, hn⟩ := hs.coreSteps_succ h
    exact ⟨n, u, hn, by rw [hout, hs.1, List.nil_append]⟩
  · exact absurd hsres (hno v)

end Sys2Proof.Machine
end

section
/-! PROOF. The exactness of the search (spec/46_seed_search.md R174 to R178, R183): CAND is exactly the values that have
passed the tests, because a value passes one test more exactly where its leading digits have passed the ones before. -/

namespace Sys2Proof.Machine

/-! The tests, on machines with the same program. -/

section
variable {s t : State} (h : SameProgram t s)
include h

theorem SameProgram.cell_eq (i : Nat) : t.cell i = s.cell i := by
  simp only [State.cell, h.1, h.2]

theorem SameProgram.prefixesPass_iff (q r : Nat) : PrefixesPass t q r ↔ PrefixesPass s q r := by
  simp only [PrefixesPass, TestPasses, h.firstOutput_iff, h.cell_eq, h.2]

end

/-- The program, CAND and ROUND agree: all that the exactness of CAND and NEXT speaks of. -/
def SameRound (t s : State) : Prop := SameProgram t s ∧ t.cand = s.cand ∧ t.round = s.round

theorem coreStep_sameRound {s u : State} (h : coreStep s = .next u) : SameRound u s :=
  ⟨coreStep_sameProgram h, (coreStep_sameSearch h).1, (coreStep_sameSearch h).2.1⟩

theorem CandExact.of_sameRound {s t : State} (hs : CandExact s) (h : SameRound t s) : CandExact t := by
  obtain ⟨hprogram, hcand, hround⟩ := h
  intro q
  rw [hcand, hround, hprogram.prefixesPass_iff]
  exact hs q

theorem NextExact.of_sameRound {s t : State} {e : Byte} {todo next : List Nat} (hs : NextExact s e todo next)
    (h : SameRound t s) : NextExact t e todo next := by
  obtain ⟨hprogram, hcand, hround⟩ := h
  simpa only [NextExact, hprogram.cell_eq, hprogram.2, hcand, hround, hprogram.firstOutput_iff] using hs

/-! The tests of a value and of its prefixes. -/

/-- The value without its last `k` digits passes the tests of its own digits. -/
theorem PrefixesPass.div {s : State} {q r k : Nat} (h : PrefixesPass s q (r + k)) : PrefixesPass s (q / 8 ^ k) r := by
  intro j h1 hj
  have htest := h j h1 (by omega)
  rwa [Nat.div_div_eq_div_mul, ← pow_add, show k + (r - j) = r + k - j by omega]

theorem prefixesPass_succ_iff (s : State) (q r : Nat) :
    PrefixesPass s q (r + 1) ↔ PrefixesPass s (q / 8) r ∧ TestPasses s q (s.len - (r + 1)) := by
  constructor
  · intro h
    have hlast := h (r + 1) (by omega) le_rfl
    rw [Nat.sub_self, pow_zero, Nat.div_one] at hlast
    exact ⟨h.div (k := 1), hlast⟩
  · rintro ⟨hprefix, hlast⟩ j h1 hj
    rcases Nat.lt_or_eq_of_le hj with hlt | rfl
    · have htest := hprefix j h1 (by omega)
      rwa [Nat.div_div_eq_div_mul, ← pow_succ', show r - j + 1 = r + 1 - j by omega] at htest
    · rwa [Nat.sub_self, pow_zero, Nat.div_one]

theorem testPasses_iff {s : State} {i : Nat} {e : Byte} (he : s.cell i = some e) (p : Nat) :
    TestPasses s p i ↔ ∃ v, FirstOutput s p v ∧ v.toNat = e.toNat := by
  simp only [TestPasses, he, Option.some.injEq]
  constructor
  · rintro ⟨v, _, hv, rfl, heq⟩
    exact ⟨v, hv, heq⟩
  · rintro ⟨v, hv, heq⟩
    exact ⟨v, e, hv, rfl, heq⟩

/-! The round. -/

/-- What a round leaves is exactly what has passed one test more. -/
theorem mem_next_iff {s : State} {e : Byte} {next : List Nat} (hcand : CandExact s) (hnext : NextExact s e [] next)
    (q : Nat) : q ∈ next ↔ q < 8 ^ (s.round + 1) ∧ PrefixesPass s q (s.round + 1) := by
  obtain ⟨he, -, tried, hexp, hmem⟩ := hnext
  rw [List.append_nil] at hexp
  rw [Nat.sub_right_comm, Nat.sub_sub] at he
  rw [hmem, ← hexp, mem_expand, hcand, ← testPasses_iff he, lt_pow_succ_iff, prefixesPass_succ_iff, and_assoc]

/-- Once tried, a value is in NEXT exactly where its first output is the target. -/
theorem NextExact.tried {s : State} {e : Byte} {p' : Nat} {todo next nxt : List Nat}
    (h : NextExact s e (p' :: todo) next)
    (hnxt : ∀ q, q ∈ nxt ↔ q ∈ next ∨ q = p' ∧ ∃ v, FirstOutput s p' v ∧ v.toNat = e.toNat) :
    NextExact s e todo nxt := by
  obtain ⟨he, hr, tried, hexp, hmem⟩ := h
  refine ⟨he, hr, tried ++ [p'], by simp [hexp], fun q => ?_⟩
  rw [hnxt, hmem, List.mem_append, List.mem_singleton, or_and_right]
  exact or_congr_right (and_congr_right fun hq => hq ▸ Iff.rfl)

/-- A trial that outputs `v` keeps its value exactly where `v` is the target. -/
theorem NextExact.output {s : State} {e : Byte} {p' : Nat} {todo next : List Nat} {v : Oct}
    (h : NextExact s e (p' :: todo) next) (hv : FirstOutput s p' v) :
    NextExact s e todo (if v.toNat = e.toNat then next ++ [p'] else next) := by
  refine h.tried fun q => ?_
  have hpass : (∃ w, FirstOutput s p' w ∧ w.toNat = e.toNat) ↔ v.toNat = e.toNat :=
    ⟨fun ⟨w, hw, heq⟩ => hv.unique hw ▸ heq, fun heq => ⟨v, hv, heq⟩⟩
  rw [hpass]
  split
  · next heq => simp [heq]
  · next hne => simp [hne]

/-- A trial without an output drops its value. -/
theorem NextExact.pruned {s : State} {e : Byte} {p' : Nat} {todo next : List Nat}
    (h : NextExact s e (p' :: todo) next) (hno : ∀ v, ¬ FirstOutput s p' v) : NextExact s e todo next :=
  h.tried fun q => by simp [hno]

/-! The invariant at each place of the search's loops. -/

section
variable {s : State}

theorem searchExact_of_outsideSearch (h : s.OutsideSearch) : s.SearchExact := by
  simp only [State.OutsideSearch, List.mem_cons, List.not_mem_nil, or_false] at h
  rcases h with ha | ha | ha | ha <;> simp only [State.SearchExact, ha]

theorem searchExact_seedRound_iff (ha : s.activity = .seedRound) :
    s.SearchExact ↔ CandExact s ∧ s.round ≤ s.len := by
  simp only [State.SearchExact, ha]

theorem searchExact_seedNext_iff {e : Byte} {todo next : List Nat} (ha : s.activity = .seedNext e todo next) :
    s.SearchExact ↔ CandExact s ∧ NextExact s e todo next := by
  simp only [State.SearchExact, ha]

theorem searchExact_seedTrial_iff {e : Byte} {p' : Nat} {todo next : List Nat}
    (ha : s.activity = .seedTrial e p' todo next) :
    s.SearchExact ↔ CandExact s ∧ NextExact s e (p' :: todo) next ∧ TrialRun s p' := by
  simp only [State.SearchExact, ha, TrialRun]

end

/-- The invariant speaks of the core, CAND, ROUND and the place in the loops alone. -/
theorem State.SearchExact.of_sameCore {s t : State} (hs : s.SearchExact) (h : SameCore s t) (hsearch : SameSearch t s)
    (hact : t.activity = s.activity) : t.SearchExact := by
  have hsame : SameRound t s := ⟨h.sameProgram.symm, hsearch.1, hsearch.2.1⟩
  cases ha : s.activity with
  | seedRound =>
    obtain ⟨hc, hle⟩ := (searchExact_seedRound_iff ha).mp hs
    refine (searchExact_seedRound_iff (hact.trans ha)).mpr ⟨hc.of_sameRound hsame, ?_⟩
    obtain ⟨⟨-, hlen⟩, -, hround⟩ := hsame
    rwa [hround, hlen]
  | seedNext e todo next =>
    obtain ⟨hc, hn⟩ := (searchExact_seedNext_iff ha).mp hs
    exact (searchExact_seedNext_iff (hact.trans ha)).mpr ⟨hc.of_sameRound hsame, hn.of_sameRound hsame⟩
  | seedTrial e p' todo next =>
    obtain ⟨hc, hn, htrial⟩ := (searchExact_seedTrial_iff ha).mp hs
    exact (searchExact_seedTrial_iff (hact.trans ha)).mpr
      ⟨hc.of_sameRound hsame, hn.of_sameRound hsame, htrial.of_sameCore h⟩
  | _ => exact searchExact_of_outsideSearch (by simp [State.OutsideSearch, hact, ha])

/-- A core step of a trial leaves CAND and NEXT as exact as they were. -/
theorem State.SearchExact.coreStep_of_trial {s u : State} {e : Byte} {p' : Nat} {todo next : List Nat}
    (hs : s.SearchExact) (ha : s.activity = .seedTrial e p' todo next) (hu : coreStep s = .next u) :
    CandExact u ∧ NextExact u e (p' :: todo) next ∧ TrialRun s p' := by
  obtain ⟨hc, hn, htrial⟩ := (searchExact_seedTrial_iff ha).mp hs
  have hsame := coreStep_sameRound hu
  exact ⟨hc.of_sameRound hsame, hn.of_sameRound hsame, htrial⟩

theorem startSearch_searchExact (s : State) (p : List Byte) : (s.startSearch p).SearchExact := by
  refine ⟨fun q => ?_, Nat.zero_le _⟩
  constructor
  · intro hq
    cases List.mem_singleton.mp hq
    exact ⟨Nat.one_pos, fun j h1 h0 => absurd (h1.trans h0) (Nat.not_succ_le_zero 0)⟩
  · rintro ⟨hq, -⟩
    exact List.mem_singleton.mpr (Nat.lt_one_iff.mp hq)

theorem SearchMove.searchExact {s t : State} (h : SearchMove s t) (hs : s.SearchExact) : t.SearchExact := by
  cases h with
  | targeted e ha hr he ht =>
    obtain ⟨hc, -⟩ := (searchExact_seedRound_iff ha).mp hs
    have hn : NextExact s e (expand s.cand) [] := ⟨he, hr, [], rfl, by simp⟩
    have hsame : SameRound t s := ht ▸ ⟨.refl s, rfl, rfl⟩
    exact (searchExact_seedNext_iff (ht ▸ rfl)).mpr ⟨hc.of_sameRound hsame, hn.of_sameRound hsame⟩
  | answered ha hr ht => exact ht ▸ searchExact_of_outsideSearch (outsideSearch_of_idle rfl)
  | emptied e ha ht => exact ht ▸ searchExact_of_outsideSearch (outsideSearch_of_idle rfl)
  | roundEnded e next ha hne ht =>
    obtain ⟨hc, hn⟩ := (searchExact_seedNext_iff ha).mp hs
    have hprogram : SameProgram t s := ht ▸ .refl s
    refine (searchExact_seedRound_iff (ht ▸ rfl)).mpr ⟨fun q => ?_, ht ▸ hn.2.1⟩
    rw [hprogram.prefixesPass_iff, ht]
    exact mem_next_iff hc hn q
  | launched e p' todo next ha ht =>
    obtain ⟨hc, hn⟩ := (searchExact_seedNext_iff ha).mp hs
    have hsame : SameRound t s := ht ▸ ⟨.refl s, rfl, rfl⟩
    exact (searchExact_seedTrial_iff (ht ▸ rfl)).mpr
      ⟨hc.of_sameRound hsame, hn.of_sameRound hsame, ht ▸ startRun_trialRun s p' _⟩
  | continued e p' todo next ha hu hres =>
    obtain ⟨hc, hn, htrial⟩ := hs.coreStep_of_trial ha hu
    have ha' := (coreStep_sameSurroundings hu).activity_eq.symm.trans ha
    exact (searchExact_seedTrial_iff ha').mpr ⟨hc, hn, htrial.continued hu hres⟩
  | output e p' todo next u v ha hu hres ht =>
    obtain ⟨hc, hn, htrial⟩ := hs.coreStep_of_trial ha hu
    have hn' := hn.output (htrial.firstOutput hu hres)
    have hsame : SameRound t u := ht ▸ ⟨.refl u, rfl, rfl⟩
    exact (searchExact_seedNext_iff (ht ▸ rfl)).mpr ⟨hc.of_sameRound hsame, hn'.of_sameRound hsame⟩
  | pruned e p' todo next u ha hu hres ht =>
    obtain ⟨hc, hn, htrial⟩ := hs.coreStep_of_trial ha hu
    have hno (v : Oct) : ¬ FirstOutput u p' v := fun hv =>
      htrial.not_firstOutput hu (sres_of_stepResult hres nofun) v ((coreStep_sameProgram hu).symm.firstOutput hv)
    have hsame : SameRound t u := ht ▸ ⟨.refl u, rfl, rfl⟩
    exact (searchExact_seedNext_iff (ht ▸ rfl)).mpr ⟨hc.of_sameRound hsame, (hn.pruned hno).of_sameRound hsame⟩
  | failed _ _ _ _ hidle _ => exact searchExact_of_outsideSearch (outsideSearch_of_idle hidle)

/-- Settles O45: CAND is exact at a search's start, and every move of a search keeps it and NEXT exact. -/
theorem stepKeepsTheSearchExact : Obligations.StepKeepsTheSearchExact := by
  intro s t hs h
  have hpop : (popped s).SearchExact := hs.of_sameCore (.refl s) (.refl s) rfl
  rcases step_search_cases h with ⟨-, hout⟩ | ⟨p, rfl⟩ | rfl | hmove
  · exact searchExact_of_outsideSearch hout
  · exact startSearch_searchExact _ p
  · exact hpop.of_sameCore (.refl (popped s)) (.refl (popped s)) rfl
  · exact hmove.searchExact hpop

end Sys2Proof.Machine
end

section
/-! PROOF. The answer of the search (spec/46_seed_search.md R180, R181, R183): after the last round CAND is exactly the
values that pass every test, and a round that leaves nothing leaves nothing to come. -/

namespace Sys2Proof.Machine

/-- A value below `8^LEN` that passes LEN tests. -/
def PassesAll (s : State) (q : Nat) : Prop := q < 8 ^ s.len ∧ PrefixesPass s q s.len

/-- The answer is the least value that passes every test, or None where none does. -/
def SeedAnswer (s : State) : Option Nat → Prop
  | some a => PassesAll s a ∧ ∀ q, PassesAll s q → a ≤ q
  | none => ∀ q, ¬ PassesAll s q

theorem SameProgram.passesAll_iff {s t : State} (h : SameProgram t s) (q : Nat) : PassesAll t q ↔ PassesAll s q := by
  rw [PassesAll, PassesAll, h.prefixesPass_iff, h.2]

theorem SeedAnswer.of_sameProgram {s t : State} {o : Option Nat} (hs : SeedAnswer s o) (h : SameProgram t s) :
    SeedAnswer t o := by
  cases o <;> simpa only [SeedAnswer, h.passesAll_iff] using hs

/-! The two ends of a search with an answer. -/

/-- After the last round (R181). -/
theorem seedAnswer_of_lastRound {s : State} (hcand : CandExact s) (hround : s.round = s.len) :
    SeedAnswer s s.cand.min? := by
  have hmem (q : Nat) : PassesAll s q ↔ q ∈ s.cand := by rw [hcand, hround, PassesAll]
  cases hmin : s.cand.min? with
  | some a =>
    obtain ⟨ha, hle⟩ := List.min?_eq_some_iff.mp hmin
    exact ⟨(hmem a).mpr ha, fun q hq => hle q ((hmem q).mp hq)⟩
  | none =>
    have hnil := List.min?_eq_none_iff.mp hmin
    exact fun q hq => List.not_mem_nil (hnil ▸ (hmem q).mp hq)

/-- After a round without survivors: a value that passes every test has leading digits that pass this round's (R180). -/
theorem seedAnswer_of_emptyRound {s : State} {e : Byte} (hcand : CandExact s) (hnext : NextExact s e [] []) :
    SeedAnswer s none := by
  rintro q ⟨hlt, hpass⟩
  have hlen : s.len = (s.round + 1) + (s.len - (s.round + 1)) := (Nat.add_sub_cancel' hnext.2.1).symm
  rw [hlen] at hlt hpass
  have hprefix : q / 8 ^ (s.len - (s.round + 1)) < 8 ^ (s.round + 1) :=
    Nat.div_lt_of_lt_mul (by rwa [mul_comm, ← pow_add])
  exact List.not_mem_nil ((mem_next_iff hcand hnext _).mpr ⟨hprefix, hpass.div⟩)

/-! The machine from the command on. -/

/-- The machine runs the search of the program of `l`, with no host action waiting: a seed that it has handed over is the
answer, and the search is over or exact. -/
structure SearchingFor (l t : State) : Prop where
  inbox : t.inbox = []
  answer : ∀ o, t.answer = .seedOk o → t.seed = o ∧ SeedAnswer l o
  place : t.activity = .idle ∨ ¬ t.OutsideSearch ∧ SameProgram t l ∧ t.SearchExact

theorem OfStepCommand.ne_seedOk {r : Answer} (h : OfStepCommand r) (o : Option Nat) : r ≠ .seedOk o := by
  cases h <;> exact nofun

/-- A search goes on, with nothing new for the host to read, or it is over and any seed it hands over is the answer. -/
inductive SearchOutcome (s t : State) : Prop where
  | goesOn (hact : ¬ t.OutsideSearch) (hans : t.answer = s.answer) (hseed : t.seed = s.seed) (hinbox : t.inbox = s.inbox)
  | ends (hidle : t.activity = .idle) (hans : ∀ o, t.answer = .seedOk o → t.seed = o ∧ SeedAnswer s o)
      (hinbox : t.inbox = s.inbox)

theorem SearchMove.outcome {s t : State} (h : SearchMove s t) (hs : s.SearchExact) : SearchOutcome s t := by
  have hcore {u : State} (hu : coreStep s = .next u) :
      u.answer = s.answer ∧ u.seed = s.seed ∧ u.inbox = s.inbox := by
    obtain ⟨-, -, -, -, -, -, hseed, -, -, hans, -, hinbox, -⟩ := coreStep_sameSurroundings hu
    exact ⟨hans.symm, hseed.symm, hinbox.symm⟩
  cases h with
  | targeted e ha hr he ht => subst ht; exact .goesOn (by simp [State.OutsideSearch]) rfl rfl rfl
  | answered ha hr ht =>
    obtain ⟨hc, hle⟩ := (searchExact_seedRound_iff ha).mp hs
    subst ht
    refine .ends rfl (fun o ho => ?_) rfl
    cases ho
    exact ⟨rfl, seedAnswer_of_lastRound hc (Nat.le_antisymm hle hr)⟩
  | emptied e ha ht =>
    obtain ⟨hc, hn⟩ := (searchExact_seedNext_iff ha).mp hs
    subst ht
    refine .ends rfl (fun o ho => ?_) rfl
    cases ho
    exact ⟨rfl, seedAnswer_of_emptyRound hc hn⟩
  | roundEnded e next ha hne ht => subst ht; exact .goesOn (by simp [State.OutsideSearch]) rfl rfl rfl
  | launched e p' todo next ha ht => subst ht; exact .goesOn (by simp [State.OutsideSearch]) rfl rfl rfl
  | continued e p' todo next ha hu hres =>
    obtain ⟨hans, hseed, hinbox⟩ := hcore hu
    have ha' := (coreStep_sameSurroundings hu).activity_eq.symm.trans ha
    exact .goesOn (by simp [State.OutsideSearch, ha']) hans hseed hinbox
  | output e p' todo next u v ha hu hres ht =>
    obtain ⟨hans, hseed, hinbox⟩ := hcore hu
    subst ht
    exact .goesOn (by simp [State.OutsideSearch]) hans hseed hinbox
  | pruned e p' todo next u ha hu hres ht =>
    obtain ⟨hans, hseed, hinbox⟩ := hcore hu
    subst ht
    exact .goesOn (by simp [State.OutsideSearch]) hans hseed hinbox
  | failed _ _ _ hinbox hidle hans => exact .ends hidle (fun o ho => absurd ho (hans o)) hinbox

theorem SearchingFor.step {l s t : State} (hs : SearchingFor l s) (h : step s = .next t) : SearchingFor l t := by
  obtain ⟨hin, hans, hidle | ⟨hact, hprogram, hexact⟩⟩ := hs
  · obtain ⟨⟨hidle', hin'⟩, hstep⟩ := step_hostSteps ⟨hidle, hin⟩ h
    exact ⟨hin', fun o ho => absurd ho (hstep.ne_seedOk o), .inl hidle'⟩
  · have hadvance : advance s = .next t :=
      (step_of_active hin rfl fun hidle => hact (outsideSearch_of_idle hidle)).symm.trans h
    have hmove := advance_searchMove hact hadvance
    cases hmove.outcome hexact with
    | goesOn hact' hans' hseed' hin' =>
      refine ⟨hin'.trans hin, fun o ho => ?_, .inr ⟨hact', (advance_sameProgram hadvance).trans hprogram,
        hmove.searchExact hexact⟩⟩
      rw [hseed']
      exact hans o (hans' ▸ ho)
    | ends hidle hans' hin' =>
      exact ⟨hin'.trans hin, fun o ho => ⟨(hans' o ho).1, (hans' o ho).2.of_sameProgram hprogram.symm⟩, .inl hidle⟩

theorem SearchingFor.machineRun {l : State} (n : Nat) {s t : State} (hs : SearchingFor l s)
    (h : machineRun n s = .next t) : SearchingFor l t := by
  induction n generalizing s with
  | zero => cases h; exact hs
  | succ n ih =>
    obtain ⟨u, hu, ht⟩ := andThen_eq_next.mp h
    exact ih (hs.step hu) ht

/-- The command is refused or begins the search of its program. -/
theorem searchingFor_of_command {s t : State} {program : List Byte} (hidle : s.activity = .idle)
    (hin : s.inbox = [.issue (.findMinimalSeed program)]) (h : step s = .next t) :
    SearchingFor (s.loadProgram program) t := by
  rw [step_of_issue_idle hin hidle] at h
  rcases startWith_cases h with ⟨why, -, rfl⟩ | ⟨-, rfl⟩
  · exact ⟨rfl, nofun, .inl hidle⟩
  · exact ⟨rfl, nofun, .inr ⟨by simp [State.OutsideSearch, State.startSearch], .refl (s.loadProgram program),
      startSearch_searchExact _ program⟩⟩

/-- Settles O46: what the machine keeps along the search says what its answer is. -/
theorem findMinimalSeedAnswersTheLeast : Obligations.FindMinimalSeedAnswersTheLeast := by
  intro s t program n hidle hin h
  obtain ⟨u, hu, ht⟩ := andThen_eq_next.mp h
  have hanswer := ((searchingFor_of_command hidle hin hu).machineRun n ht).answer
  refine ⟨fun a ha => ?some, fun hnone => ?none⟩
  case some =>
    obtain ⟨hseed, ⟨hlt, hpass⟩, hleast⟩ := hanswer _ ha
    exact ⟨hseed, hlt, hpass, fun q hq hpass => hleast q ⟨hq, hpass⟩⟩
  case none =>
    obtain ⟨hseed, hno⟩ := hanswer _ hnone
    exact ⟨hseed, fun q hq hpass => hno q ⟨hq, hpass⟩⟩

end Sys2Proof.Machine
end

section
/-! PROOF. The step of a verify (spec/47_verifier.md R202): what the core's step says to the verifier, one equation for
each case of the loop, and what each result holds. -/

namespace Sys2Proof.Machine

/-! What the result of a core's step says, whether or not the core has faulted before. -/

section
variable {s u : State} (h : coreStep s = .next u)
include h

/-- A core that has faulted before returns its fault again (spec/40_step_cycle.md R94). -/
theorem coreStep_outcome_of_next : StepOutcome s u := by
  by_cases hk : s.fcause = .noFault
  · exact coreStep_outcome hk h
  · cases (coreStep_of_faulted hk).symm.trans h
    exact .faulted rfl hk rfl

theorem coreStep_out_of_output {v : Oct} (hres : u.sres = some (.output v)) : u.out = s.out ++ [v] := by
  rcases outputIsAppendOnly s u h with ⟨w, hw, hout⟩ | ⟨hno, -⟩
  · cases hw.symm.trans hres; exact hout
  · exact absurd hres (hno v)

theorem coreStep_out_of_continues (hres : u.stepResult = .continues) : u.out = s.out := by
  rcases outputIsAppendOnly s u h with ⟨w, hw, -⟩ | ⟨-, hout⟩
  · cases (stepResult_of_sres hw).symm.trans hres
  · exact hout

/-- Only a core without a fault, at or past the end, returns Halt, and nothing else is written. -/
theorem coreStep_halted (hres : u.sres = some .halt) : s.fcause = .noFault ∧ s.len ≤ s.pc ∧ u = s.returns .halt := by
  have hk : s.fcause = .noFault := by
    by_contra hk
    cases (coreStep_of_faulted hk).symm.trans h
    cases hres
  have hpc := len_le_pc_of_halt hk h hres
  cases (coreStep_of_halted hk hpc).symm.trans h
  exact ⟨hk, hpc, rfl⟩

/-- The fault a step returns is the one in the latch. -/
theorem coreStep_latch_of_fault {k : FCause} {p : Nat} {x : Byte} (hres : u.sres = some (.fault k p x)) :
    k = u.fcause ∧ k ≠ .noFault ∧ p = u.fpc ∧ x = u.fval := by
  cases coreStep_outcome_of_next h with
  | continues hres' _ _ => cases hres'.symm.trans hres
  | output _ hres' _ _ => cases hres'.symm.trans hres
  | halted _ ht => subst ht; cases hres
  | faulted hres' hk _ => cases hres'.symm.trans hres; exact ⟨rfl, hk, rfl, rfl⟩

end

/-! The loop, case by case. -/

theorem step_of_verify {s u : State} (hin : s.inbox = []) (ha : s.activity = .verify) (hu : coreStep s = .next u) :
    step s = judgeVerify u := by
  rw [step_of_active hin ha nofun, advance, ha]
  simp only [verifyStep, hu, andThen_next]

section
variable {u : State} {v : Oct} {e : Byte}

theorem judgeVerify_of_continues (hres : u.stepResult = .continues) : judgeVerify u = .next u := by
  simp only [judgeVerify, hres]

theorem judgeVerify_of_match (hres : u.stepResult = .output v) (hlt : u.vpos < u.len) (he : u.cell u.vpos = some e)
    (hve : v.toNat = e.toNat) : judgeVerify u = .next { u with vpos := u.vpos + 1 } := by
  simp only [judgeVerify, hres, verifyOutput, if_neg (not_le.mpr hlt), he, if_neg (not_not.mpr hve)]

theorem judgeVerify_of_wrongValue (hres : u.stepResult = .output v) (hlt : u.vpos < u.len)
    (he : u.cell u.vpos = some e) (hve : v.toNat ≠ e.toNat) :
    judgeVerify u = .next (u.endVerify (.mismatch .wrongValue u.vpos (some e) (some v))) := by
  simp only [judgeVerify, hres, verifyOutput, if_neg (not_le.mpr hlt), he, if_pos hve]

theorem judgeVerify_of_excessOutput (hres : u.stepResult = .output v) (hle : u.len ≤ u.vpos) :
    judgeVerify u = .next (u.endVerify (.mismatch .excessOutput u.len none (some v))) := by
  simp only [judgeVerify, hres, verifyOutput, if_pos hle]

theorem judgeVerify_of_prematureHalt (hres : u.stepResult = .halt) (hlt : u.vpos < u.len)
    (he : u.cell u.vpos = some e) :
    judgeVerify u = .next (u.endVerify (.mismatch .prematureHalt u.vpos (some e) none)) := by
  simp only [judgeVerify, hres, verifyHalt, if_pos hlt, he]

theorem judgeVerify_of_verified (hres : u.stepResult = .halt) (hle : u.len ≤ u.vpos) :
    judgeVerify u = .next (u.endVerify .verified) := by
  simp only [judgeVerify, hres, verifyHalt, if_neg (not_lt.mpr hle)]

theorem judgeVerify_of_fault {k : FCause} {p : Nat} {x : Byte} (hres : u.stepResult = .fault k p x) :
    judgeVerify u = .next (u.endVerify (.fault k p x u.vpos)) := by
  simp only [judgeVerify, hres]

end

/-- Settles O51, case by case: the core's step changes neither VPOS nor the program. -/
theorem whatAVerifyStepMeans : Obligations.WhatAVerifyStepMeans := by
  intro s u hin ha hu
  have hprogram := coreStep_sameProgram hu
  rw [step_of_verify hin ha hu, ← (coreStep_sameVerifier hu).1, ← hprogram.2, ← hprogram.cell_eq]
  refine ⟨fun hres => judgeVerify_of_continues (stepResult_of_sres hres),
    fun v hres => ⟨fun hle => judgeVerify_of_excessOutput (stepResult_of_sres hres) hle,
      fun e hlt he hve => judgeVerify_of_wrongValue (stepResult_of_sres hres) hlt he hve,
      fun e hlt he hve => judgeVerify_of_match (stepResult_of_sres hres) hlt he hve⟩,
    fun hres => ⟨fun e hlt he => judgeVerify_of_prematureHalt (stepResult_of_sres hres) hlt he,
      fun hle => judgeVerify_of_verified (stepResult_of_sres hres) hle⟩,
    fun k p x hres => judgeVerify_of_fault (stepResult_of_sres hres)⟩

/-! All that a step can do to a verify, said once. -/

/-- The results that the state `u` after a core's step can give a verify (R203 to R208). -/
inductive VerifyResult (u : State) : VRes → Prop where
  | wrongValue (v : Oct) (e : Byte) (hlt : u.vpos < u.len) (he : u.cell u.vpos = some e) (hve : v.toNat ≠ e.toNat) :
      VerifyResult u (.mismatch .wrongValue u.vpos (some e) (some v))
  | excessOutput (v : Oct) : VerifyResult u (.mismatch .excessOutput u.len none (some v))
  | prematureHalt (e : Byte) (hlt : u.vpos < u.len) (he : u.cell u.vpos = some e) :
      VerifyResult u (.mismatch .prematureHalt u.vpos (some e) none)
  | verified (hres : u.sres = some .halt) (hle : u.len ≤ u.vpos) : VerifyResult u .verified
  | fault (k : FCause) (p : Nat) (x : Byte) (hres : u.sres = some (.fault k p x)) :
      VerifyResult u (.fault k p x u.vpos)

/-- How a verify moves on from a core's step `u`. -/
inductive VerifyMove (s u t : State) : Prop where
  | continued (hout : u.out = s.out) (ht : t = u)
  | matched (v : Oct) (e : Byte) (hout : u.out = s.out ++ [v]) (hlt : u.vpos < u.len) (he : u.cell u.vpos = some e)
      (hve : v.toNat = e.toNat) (ht : t = { u with vpos := u.vpos + 1 })
  | ended (r : VRes) (hr : VerifyResult u r) (ht : t = u.endVerify r)

theorem judgeVerify_verifyMove {s u t : State} (hu : coreStep s = .next u) (h : judgeVerify u = .next t) :
    VerifyMove s u t := by
  rcases judgeVerify_cases h with ⟨hres, ht⟩ | ⟨v, e, hres, hlt, he, hve, ht⟩ | ⟨v, e, -, hlt, he, hve, ht⟩ |
    ⟨v, -, -, ht⟩ | ⟨e, -, hlt, he, ht⟩ | ⟨hres, hle, ht⟩ | ⟨k, p, x, hres, ht⟩
  · exact .continued (coreStep_out_of_continues hu hres) ht
  · exact .matched v e (coreStep_out_of_output hu (sres_of_stepResult hres nofun)) hlt he hve ht
  · exact .ended _ (.wrongValue v e hlt he hve) ht
  · exact .ended _ (.excessOutput v) ht
  · exact .ended _ (.prematureHalt e hlt he) ht
  · exact .ended _ (.verified (sres_of_stepResult hres nofun) hle) ht
  · exact .ended _ (.fault k p x (sres_of_stepResult hres nofun)) ht

theorem advance_verifyMove {s t : State} (ha : s.activity = .verify) (h : advance s = .next t) :
    ∃ u, coreStep s = .next u ∧ VerifyMove s u t := by
  rw [advance, ha] at h
  obtain ⟨u, hu, ht⟩ := andThen_eq_next.mp h
  exact ⟨u, hu, judgeVerify_verifyMove hu ht⟩

end Sys2Proof.Machine
end

section
/-! PROOF. The verifier's invariant (spec/47_verifier.md R203): VPOS counts the outputs, each equal to its cell. -/

namespace Sys2Proof.Machine

/-- Every output equals its cell. -/
def State.OutputsMatch (s : State) : Prop :=
  ∀ k v, s.out[k]? = some v → ∃ e, s.cell k = some e ∧ v.toNat = e.toNat

/-- What a verify in progress holds: `State.VerifyMatched` asks it of a state whose activity is `verify`. -/
def State.Matching (s : State) : Prop :=
  s.vres = .pending ∧ s.vpos ≤ s.len ∧ s.out.length = s.vpos ∧ s.OutputsMatch

theorem verifyMatched_of_ne {s : State} (h : s.activity ≠ .verify) : s.VerifyMatched := fun ha => absurd ha h

theorem State.OutputsMatch.of_out_eq {s u : State} (hs : s.OutputsMatch) (hprogram : SameProgram u s)
    (hout : u.out = s.out) : u.OutputsMatch := by
  simpa only [State.OutputsMatch, hout, hprogram.cell_eq] using hs

/-- One more output that equals its cell. -/
theorem State.OutputsMatch.append {s u : State} {v : Oct} {e : Byte} (hs : s.OutputsMatch)
    (hprogram : SameProgram u s) (hout : u.out = s.out ++ [v]) (he : u.cell s.out.length = some e)
    (hve : v.toNat = e.toNat) : u.OutputsMatch := by
  intro k w hk
  rcases Nat.lt_trichotomy k s.out.length with hlt | rfl | hgt
  · rw [hout, List.getElem?_append_left hlt] at hk
    rw [hprogram.cell_eq]
    exact hs k w hk
  · rw [hout, List.getElem?_concat_length] at hk
    cases hk
    exact ⟨e, he, hve⟩
  · rw [hout, List.getElem?_eq_none (by simpa using hgt)] at hk
    cases hk

theorem VerifyMove.verifyMatched {s u t : State} (hs : s.Matching) (hu : coreStep s = .next u)
    (h : VerifyMove s u t) : t.VerifyMatched := by
  obtain ⟨hpending, hle, hlength, hmatch⟩ := hs
  obtain ⟨hvpos, hvres⟩ := coreStep_sameVerifier hu
  have hprogram := coreStep_sameProgram hu
  rw [← hvpos] at hlength hle
  intro ha
  cases h with
  | continued hout ht =>
    subst ht
    exact ⟨hvres.trans hpending, hprogram.2 ▸ hle, hout ▸ hlength, hmatch.of_out_eq hprogram hout⟩
  | matched v e hout hlt he hve ht =>
    have hu' : u.OutputsMatch := hmatch.append hprogram hout (hlength ▸ he) hve
    subst ht
    exact ⟨hvres.trans hpending, hlt, by simp [hout, hlength], hu'⟩
  | ended r _ ht => subst ht; cases ha

theorem afterTrial_activity_ne_verify (e : Byte) (todo next : List Nat) (u : State) :
    (afterTrial e todo next u).activity ≠ .verify := by
  rcases afterTrial_cases e todo next u with h | h <;> rw [h] <;> exact nofun

theorem judgeTrial_activity_ne_verify {u : State} (e : Byte) (p' : Nat) (todo next : List Nat)
    (hu : u.activity ≠ .verify) : (judgeTrial e p' todo next u).activity ≠ .verify := by
  unfold judgeTrial
  split
  · exact hu
  · exact afterTrial_activity_ne_verify e todo _ u
  · exact afterTrial_activity_ne_verify e todo next _
  · exact nofun

theorem endRound_activity_ne_verify (s : State) (next : List Nat) : (endRound s next).activity ≠ .verify := by
  simp only [endRound]
  split <;> exact nofun

/-- Carrying on another command begins no verify. -/
theorem advance_activity_ne_verify {s t : State} (ha : s.activity ≠ .verify) (h : advance s = .next t) :
    t.activity ≠ .verify := by
  have hcore {u : State} (hu : coreStep s = .next u) : u.activity ≠ .verify :=
    (coreStep_sameSurroundings hu).activity_eq ▸ ha
  rcases advance_cases h with ⟨-, rfl⟩ | ⟨-, u, hu, rfl⟩ | ⟨-, u, hu, rfl⟩ | ⟨-, -, e, -, rfl⟩ | ⟨-, -, rfl⟩ |
    ⟨e, next, -, rfl⟩ | ⟨e, p', todo, next, -, ⟨why, -, rfl⟩ | ⟨-, rfl⟩⟩ | ⟨e, p', todo, next, -, u, hu, rfl⟩ |
    ⟨hverify, -⟩
  · exact ha
  · rcases judgeRun_cases u with h | ⟨r, h⟩ <;> rw [h]
    · exact hcore hu
    · exact nofun
  · rcases judgeFirst_cases u with h | ⟨r, h⟩ <;> rw [h]
    · exact hcore hu
    · exact nofun
  · exact nofun
  · exact nofun
  · exact endRound_activity_ne_verify s next
  · exact nofun
  · exact nofun
  · exact judgeTrial_activity_ne_verify e p' todo next (hcore hu)
  · exact absurd hverify ha

theorem advance_verifyMatched {s t : State} (hs : s.VerifyMatched) (h : advance s = .next t) : t.VerifyMatched := by
  by_cases ha : s.activity = .verify
  · obtain ⟨u, hu, hmove⟩ := advance_verifyMove ha h
    exact hmove.verifyMatched (hs ha) hu
  · exact verifyMatched_of_ne (advance_activity_ne_verify ha h)

/-- A verify begins with no output to compare. -/
theorem startVerify_verifyMatched (s : State) (p : List Byte) (a b c : Nat) : (s.startVerify p a b c).VerifyMatched :=
  fun _ => ⟨rfl, Nat.zero_le _, rfl, nofun⟩

theorem accept_verifyMatched {cmd : Command} {s t : State} (hidle : s.activity = .idle) (h : accept cmd s = .next t) :
    t.VerifyMatched := by
  have hs : s.activity ≠ .verify := hidle ▸ nofun
  rcases accept_cases h with ⟨why, rfl⟩ | ⟨-, -, u, hu, rfl⟩ | ⟨p, a, b, c, -, rfl | rfl | rfl | rfl⟩ | ⟨p, -, rfl⟩
  · exact verifyMatched_of_ne hs
  · exact verifyMatched_of_ne ((coreStep_sameSurroundings hu).activity_eq ▸ hs)
  · exact verifyMatched_of_ne hs
  · exact verifyMatched_of_ne nofun
  · exact verifyMatched_of_ne nofun
  · exact startVerify_verifyMatched s p a b c
  · exact verifyMatched_of_ne nofun

/-- Settles O50: a verify begins with no output and every move of it keeps the count; nothing else begins one. -/
theorem stepKeepsTheVerifierMatched : Obligations.StepKeepsTheVerifierMatched := by
  intro s t hs h
  have hpop : (popped s).VerifyMatched := hs
  rcases step_cases h with h | ⟨hidle, cmd, h, -⟩ | ⟨-, rfl⟩
  · exact advance_verifyMatched hpop h
  · exact accept_verifyMatched (s := popped s) hidle h
  · exact hpop

end Sys2Proof.Machine
end

section
/-! PROOF. The result of a verify (spec/47_verifier.md R206, R208): what its fields hold, and what Verified says of the
run that it ends. -/

namespace Sys2Proof.Machine

/-- A verify goes on, with nothing new for the host to read, or ends with a result judged after the core's step `u`. -/
inductive VerifyOutcome (s t : State) : Prop where
  | goesOn (u : State) (hu : coreStep s = .next u) (hcore : SameCore t u) (hact : t.activity = .verify)
      (hpending : t.vres = .pending) (hans : t.answer = s.answer) (hinbox : t.inbox = s.inbox)
  | ends (u : State) (r : VRes) (hu : coreStep s = .next u) (hr : VerifyResult u r) (ht : t = u.endVerify r)

theorem VerifyMove.outcome {s u t : State} (h : VerifyMove s u t) (hs : s.vres = .pending) (ha : s.activity = .verify)
    (hu : coreStep s = .next u) : VerifyOutcome s t := by
  obtain ⟨-, -, -, -, -, -, -, -, hvres, hans, hact, hinbox, -⟩ := coreStep_sameSurroundings hu
  cases h with
  | continued _ ht =>
    subst ht
    exact .goesOn t hu (.refl t) (hact.symm.trans ha) (hvres.symm.trans hs) hans.symm hinbox.symm
  | matched v e _ _ _ _ ht =>
    subst ht
    exact .goesOn u hu (.refl u) (hact.symm.trans ha) (hvres.symm.trans hs) hans.symm hinbox.symm
  | ended r hr ht => exact .ends u r hu hr ht

theorem step_verifyOutcome {s t : State} (hs : s.VerifyMatched) (hin : s.inbox = []) (ha : s.activity = .verify)
    (h : step s = .next t) : VerifyOutcome s t := by
  obtain ⟨u, hu, hmove⟩ := advance_verifyMove ha ((step_of_active hin ha nofun).symm.trans h)
  exact hmove.outcome (hs ha).1 ha hu

/-- Settles O52, result by result. -/
theorem fieldsOfTheVerifiersResult : Obligations.FieldsOfTheVerifiersResult := by
  intro s t hs hin ha h
  cases step_verifyOutcome hs hin ha h with
  | goesOn u hu hcore hact hpending hans hinbox => simp [hact, hpending]
  | ends u r hu hr ht =>
    subst ht
    cases hr with
    | wrongValue v e hlt he hve =>
      refine ⟨fun _ => ⟨rfl, nofun⟩, fun _ _ _ hr => ?_, nofun, nofun, nofun⟩
      cases hr
      exact ⟨hlt, he.symm, e, v, rfl, rfl, hve⟩
    | excessOutput v =>
      refine ⟨fun _ => ⟨rfl, nofun⟩, nofun, fun _ _ _ hr => ?_, nofun, nofun⟩
      cases hr
      exact ⟨rfl, rfl, v, rfl⟩
    | prematureHalt e hlt he =>
      refine ⟨fun _ => ⟨rfl, nofun⟩, nofun, nofun, fun _ _ _ hr => ?_, nofun⟩
      cases hr
      exact ⟨hlt, he.symm, ⟨e, rfl⟩, rfl⟩
    | verified _ _ => exact ⟨fun _ => ⟨rfl, nofun⟩, nofun, nofun, nofun, nofun⟩
    | fault k p x hres =>
      refine ⟨fun _ => ⟨rfl, nofun⟩, nofun, nofun, nofun, fun _ _ _ _ hr => ?_⟩
      cases hr
      obtain ⟨hk, hfault, hp, hx⟩ := coreStep_latch_of_fault hu hres
      exact ⟨hk, hfault, hp, hx, (coreStep_sameVerifier hu).1⟩

/-- The core has halted and its outputs are the program's cells. -/
def State.Reproduced (s : State) : Prop :=
  s.fcause = .noFault ∧ s.len ≤ s.pc ∧ s.out.length = s.len ∧ s.OutputsMatch

/-- The verifier answers Verified only at the halt of a run that has reproduced its program. -/
theorem reproduced_of_verified {s u : State} (hs : s.Matching) (hu : coreStep s = .next u)
    (hr : VerifyResult u .verified) : s.Reproduced ∧ u = s.returns .halt := by
  obtain ⟨-, hle, hlength, hmatch⟩ := hs
  cases hr with
  | verified hres hge =>
    obtain ⟨hk, hpc, rfl⟩ := coreStep_halted hu hres
    exact ⟨⟨hk, hpc, hlength.trans (Nat.le_antisymm hle hge), hmatch⟩, rfl⟩

/-- Settles O53: Halt changes nothing, so what held before it holds of the state that is answered. -/
theorem verifiedMeansReproduced : Obligations.VerifiedMeansReproduced := by
  intro s t hs hin ha h hverified
  cases step_verifyOutcome hs hin ha h with
  | goesOn u hu hcore hact hpending hans hinbox => cases hpending.symm.trans hverified
  | ends u r hu hr ht =>
    subst ht
    cases hverified
    obtain ⟨⟨hk, hpc, hlength, hmatch⟩, rfl⟩ := reproduced_of_verified (hs ha) hu hr
    refine ⟨rfl, rfl, hlength, hpc, hk, fun k hlt => ?_⟩
    have hv := List.getElem?_eq_getElem (hlt.trans_eq hlength.symm)
    obtain ⟨e, he, hve⟩ := hmatch k _ hv
    exact ⟨_, e, hv, he, hve⟩

end Sys2Proof.Machine
end

section
/-! PROOF. `verify` against the run of its arguments (spec/47_verifier.md R208): the machine in a verify holds the core
of that run, and it goes on exactly as long as the outputs match. -/

namespace Sys2Proof.Machine

/-! The outputs and the program. -/

/-- On a core that holds `program`, OUT is the program where it is as long and each output equals its cell. -/
theorem outputs_eq_program_iff {u : State} {program : List Byte} (hcell : ∀ k, u.cell k = program[k]?)
    (hlen : u.len = program.length) :
    u.out.length = u.len ∧ u.OutputsMatch ↔ u.out.map BitVec.toNat = program.map BitVec.toNat := by
  simp only [State.OutputsMatch, hcell, hlen]
  constructor
  · rintro ⟨hlength, hmatch⟩
    refine List.ext_getElem (by simpa using hlength) fun k hk _ => ?_
    rw [List.length_map] at hk
    obtain ⟨e, he, hve⟩ := hmatch k _ (List.getElem?_eq_getElem hk)
    obtain ⟨_, rfl⟩ := List.getElem?_eq_some_iff.mp he
    simpa using hve
  · intro heq
    refine ⟨by simpa using congrArg List.length heq, fun k v hk => ?_⟩
    have hmap := congrArg (·[k]?) heq
    simp only [List.getElem?_map, hk, Option.map_some] at hmap
    obtain ⟨e, he, hve⟩ := Option.map_eq_some_iff.mp hmap.symm
    exact ⟨e, he, hve.symm⟩

/-- Along a run of a launched program, to have reproduced it is to have halted with OUT equal to it. -/
theorem reproduced_iff_of_launch {s u : State} {program : List Byte} {a b c n : Nat}
    (h : coreSteps n (s.launch program a b c) = .next u) :
    u.Reproduced ↔ u.status = .halt ∧ u.out.map BitVec.toNat = program.map BitVec.toNat := by
  have hsur := coreSteps_sameSurroundings n h
  have hprogram : SameProgram u (s.launch program a b c) := ⟨hsur.prog_eq.symm, hsur.len_eq.symm⟩
  have hcell (k : Nat) : u.cell k = program[k]? := (hprogram.cell_eq k).trans (cell_launch s program a b c k)
  have hlaunched : u.launched = true := hsur.launched_eq.symm
  rw [← outputs_eq_program_iff hcell hprogram.2, status_eq_halt_iff, State.Live, State.Reproduced]
  simp only [hlaunched, true_and, and_assoc]

/-! From the machine to the core's run. -/

theorem OfStepCommand.ne_verify {r : Answer} (h : OfStepCommand r) (v : VRes) : r ≠ .verify v := by
  cases h <;> exact nofun

theorem SameCore.reproduced {s t : State} (h : SameCore s t) (hs : s.Reproduced) : t.Reproduced := by
  have hprogram := h.sameProgram
  obtain ⟨-, -, -, hpc, hk, -, -, -, -, hlen, hout, -⟩ := h
  obtain ⟨hk', hpc', hlength, hmatch⟩ := hs
  exact ⟨hk ▸ hk', hlen ▸ hpc ▸ hpc', hlen ▸ hout ▸ hlength, hmatch.of_out_eq hprogram.symm hout.symm⟩

/-- The machine runs the verify of the core `l`, with no host action waiting: if it has answered Verified, a run from
`l` has reproduced the program, and the command is over or its core is that of a run from `l`. -/
structure VerifyingOf (l t : State) : Prop where
  inbox : t.inbox = []
  answer : t.answer = .verify .verified → ∃ n u, coreSteps n l = .next u ∧ u.Reproduced
  place : t.activity = .idle ∨
    t.activity = .verify ∧ t.VerifyMatched ∧ ∃ n u, coreSteps n l = .next u ∧ SameCore t u

theorem VerifyingOf.step {l s t : State} (hs : VerifyingOf l s) (h : step s = .next t) : VerifyingOf l t := by
  obtain ⟨hin, hans, hidle | ⟨ha, hmatched, n, v, hn, hv⟩⟩ := hs
  · obtain ⟨⟨hidle', hin'⟩, hstep⟩ := step_hostSteps ⟨hidle, hin⟩ h
    exact ⟨hin', fun hverified => absurd hverified (hstep.ne_verify _), .inl hidle'⟩
  · cases step_verifyOutcome hmatched hin ha h with
    | goesOn u hu hcore hact hpending hans' hinbox =>
      obtain ⟨w, hw, huw⟩ := coreStep_of_sameCore hv hu
      exact ⟨hinbox.trans hin, fun hverified => hans (hans' ▸ hverified),
        .inr ⟨hact, stepKeepsTheVerifierMatched s t hmatched h, n + 1, w, coreSteps_succ_of_coreStep hn hw,
          hcore.trans huw⟩⟩
    | ends u r hu hr ht =>
      subst ht
      refine ⟨(coreStep_sameSurroundings hu).inbox_eq.symm.trans hin, fun hverified => ?_, .inl rfl⟩
      cases hverified
      exact ⟨n, v, hn, hv.reproduced (reproduced_of_verified (hmatched ha) hu hr).1⟩

/-- What every step of the machine keeps holds after any number of them. -/
theorem invariant_of_machineRun {P : State → Prop} (hP : ∀ s t, P s → step s = .next t → P t) (n : Nat) {s t : State}
    (hs : P s) (h : machineRun n s = .next t) : P t := by
  induction n generalizing s with
  | zero => cases h; exact hs
  | succ n ih =>
    obtain ⟨u, hu, ht⟩ := andThen_eq_next.mp h
    exact ih (hP s u hs hu) ht

/-! From the core's run to the machine. -/

theorem noFault_of_coreSteps {n : Nat} {s u : State} (h : coreSteps n s = .next u) (hu : u.fcause = .noFault) :
    s.fcause = .noFault := by
  by_contra hk
  cases n with
  | zero => cases h; exact hk hu
  | succ n => cases ((faultIsSticky s hk).1 n).symm.trans h; exact hk hu

/-- The outputs of a run that ends with its program as OUT match one by one. -/
theorem next_output_matches {n : Nat} {s w u : State} {v : Oct} (hout : w.out = s.out ++ [v])
    (h : coreSteps n w = .next u) (hu : u.Reproduced) : ∃ e, w.cell s.out.length = some e ∧ v.toNat = e.toNat := by
  obtain ⟨-, -, -, hmatch⟩ := hu
  have hsur := coreSteps_sameSurroundings n h
  have hprogram : SameProgram w u := ⟨hsur.prog_eq, hsur.len_eq⟩
  obtain ⟨rest, hrest⟩ := coreSteps_out_prefix h
  rw [hprogram.cell_eq]
  exact hmatch _ v (by simp [← hrest, hout])

section
variable {s : State} (hin : s.inbox = []) (ha : s.activity = .verify) (hs : s.Matching)
include hin ha hs

/-- At the halt of a run that has reproduced its program the verify answers Verified. -/
theorem machineRun_one_of_reproduced (hr : s.Reproduced) :
    machineRun 1 s = .next ((s.returns .halt).endVerify .verified) := by
  obtain ⟨hk, hpc, hlength, -⟩ := hr
  obtain ⟨-, -, hvpos, -⟩ := hs
  have hjudge : judgeVerify (s.returns .halt) = .next ((s.returns .halt).endVerify .verified) :=
    judgeVerify_of_verified rfl (hlength.symm.trans hvpos).le
  exact andThen_eq_next.mpr ⟨_, (step_of_verify hin ha (coreStep_of_halted hk hpc)).trans hjudge, rfl⟩

/-- Before it, the verify goes on with the core's step. -/
theorem step_goesOn {n : Nat} {w u : State} (hpc : s.pc < s.len) (hw : coreStep s = .next w)
    (h : coreSteps n w = .next u) (hu : u.Reproduced) :
    ∃ t, step s = .next t ∧ t.inbox = [] ∧ t.activity = .verify ∧ SameCore w t := by
  have hsur := coreStep_sameSurroundings hw
  have hin' := hsur.inbox_eq.symm.trans hin
  have ha' := hsur.activity_eq.symm.trans ha
  rw [step_of_verify hin ha hw]
  cases coreStep_outcome_of_next hw with
  | continues hres _ _ => exact ⟨w, judgeVerify_of_continues (stepResult_of_sres hres), hin', ha', .refl w⟩
  | output v hres _ hout =>
    obtain ⟨e, he, hve⟩ := next_output_matches hout h hu
    obtain ⟨-, -, hvpos, -⟩ := hs
    rw [hvpos, ← (coreStep_sameVerifier hw).1] at he
    exact ⟨_, judgeVerify_of_match (stepResult_of_sres hres) (lt_len_of_cell he) he hve, hin', ha', .refl w⟩
  | halted hpc' _ => exact absurd hpc (not_lt.mpr hpc')
  | faulted _ hk _ => exact absurd (noFault_of_coreSteps h hu.1) hk

end

/-- A verify whose core's run comes to reproduce the program comes to answer Verified. -/
theorem machineRun_verified_of_reproduced {n : Nat} {s u : State} (hin : s.inbox = []) (ha : s.activity = .verify)
    (hs : s.VerifyMatched) (h : coreSteps n s = .next u) (hu : u.Reproduced) :
    ∃ k t, machineRun k s = .next t ∧ t.answer = .verify .verified := by
  induction n generalizing s u with
  | zero => cases h; exact ⟨1, _, machineRun_one_of_reproduced hin ha (hs ha) hu, rfl⟩
  | succ n ih =>
    by_cases hpc : s.len ≤ s.pc
    · cases ((haltIsPermanent s (noFault_of_coreSteps h hu.1)).1 hpc n).symm.trans h
      exact ⟨1, _, machineRun_one_of_reproduced hin ha (hs ha) hu, rfl⟩
    · obtain ⟨w, hw, hn⟩ := andThen_eq_next.mp h
      obtain ⟨t, ht, hin', ha', hcore⟩ := step_goesOn hin ha (hs ha) (not_le.mp hpc) hw hn hu
      obtain ⟨v, hv, huv, -, -⟩ := coreStepDependsOnTheCoreAlone n w t u hcore hn
      obtain ⟨k, x, hx, hans⟩ := ih hin' ha' (stepKeepsTheVerifierMatched s t hs ht) hv (huv.reproduced hu)
      exact ⟨k + 1, x, andThen_eq_next.mpr ⟨t, ht, hx⟩, hans⟩

/-! The start. -/

theorem step_begins_verify {s : State} {p : List Byte} {a b c : Nat} (hidle : s.activity = .idle)
    (hin : s.inbox = [.issue (.verify p a b c)]) (hr : launchRefusal s.build p.length a b c = none) :
    step s = .next (({ s with inbox := [] } : State).startVerify p a b c) := by
  rw [step_of_issue_idle hin hidle]
  simp only [accept, hr, startWith]

/-- Settles O54: the machine's core is that of the run, and the run reproduces the program exactly where every step of
the verify goes on until the halt. -/
theorem verifyAgreesWithRun : Obligations.VerifyAgreesWithRun := by
  intro s program a b c hidle hin hr
  have hbegin := step_begins_verify hidle hin hr
  constructor
  · rintro ⟨n, t, h, hans⟩
    obtain ⟨v, hv, ht⟩ := andThen_eq_next.mp h
    cases hbegin.symm.trans hv
    have hstart : VerifyingOf (s.launch program a b c) (({ s with inbox := [] } : State).startVerify program a b c) :=
      ⟨rfl, nofun, .inr ⟨rfl, startVerify_verifyMatched _ program a b c, 0, _, rfl, .refl (s.launch program a b c)⟩⟩
    obtain ⟨m, u, hm, hu⟩ := (invariant_of_machineRun (fun _ _ => VerifyingOf.step) n hstart ht).answer hans
    exact ⟨m, u, hm, (reproduced_iff_of_launch hm).mp hu⟩
  · rintro ⟨n, u, h, hu⟩
    obtain ⟨v, hv, huv, -, -⟩ := coreStepDependsOnTheCoreAlone n _
      (({ s with inbox := [] } : State).startVerify program a b c) u (.refl (s.launch program a b c)) h
    obtain ⟨k, t, ht, hans⟩ := machineRun_verified_of_reproduced rfl rfl
      (startVerify_verifyMatched _ program a b c) hv (huv.reproduced ((reproduced_iff_of_launch h).mpr hu))
    exact ⟨k, t, andThen_eq_next.mpr ⟨_, hbegin, ht⟩, hans⟩

end Sys2Proof.Machine
end

section
/-! PROOF. The faults and the latch (spec/60_exceptions.md R220 to R235): which fault a fetch raises, that raising one
writes the latch and nothing else, and that every step of the machine keeps the latch as R221 says. -/

namespace Sys2Proof.Machine

/-- Settles O24, in the order of R235: the decoder's equations say which cell a fetch of both cells rejects. -/
theorem faultsOfAFetch : Obligations.FaultsOfAFetch := by
  intro s hk
  refine ⟨coreStep_of_truncated hk, fun c0 c1 h0 h1 => ?_⟩
  rw [coreStep_of_cells hk h0 h1]
  refine ⟨fun hop => ?opcode, fun hop hx => ?operand, fun hop hx => ?combo⟩
  case opcode => rw [decode_of_opcode_outOfRange c1 hop]; rfl
  case operand => rw [decode_of_operand_outOfRange (Nat.le_of_lt_succ hop) hx]; rfl
  case combo => rw [decode_of_combo_seven hop hx]; rfl

theorem effect_sres_ne_fault (i : Instr) (s : State) (k : FCause) (p : Nat) (v : Byte) :
    (effect i s).sres ≠ some (.fault k p v) := by
  rcases effect_output_cases i s with ⟨_, _, -, hres, -⟩ | ⟨-, hres, -⟩ <;> simp [hres]

/-- Settles O25: of what a core without a fault can do, Halt and an instruction leave the latch alone, and the rest is
`State.raise`. -/
theorem faultsArePrecise : Obligations.FaultsArePrecise := by
  intro s t hk h
  rcases coreStep_cases h with ⟨hf, -⟩ | ⟨-, -, rfl⟩ | ⟨-, -, rfl⟩ | ⟨-, -, _, _, -, hd⟩
  · exact absurd hk hf
  · exact .inr ⟨hk, rfl, rfl, nofun⟩
  · exact .inl ⟨nofun, rfl⟩
  · rcases hd with ⟨i, -, -, rfl⟩ | ⟨v, -, rfl⟩ | ⟨v, -, rfl⟩ | ⟨v, -, rfl⟩
    · obtain ⟨hcause, hpc, hval⟩ := effect_keeps_latch i s
      exact .inr ⟨hcause.trans hk, hpc, hval, effect_sres_ne_fault i s⟩
    all_goals exact .inl ⟨nofun, rfl⟩

/-! The latch against the table of R221. -/

theorem latchConsistent_iff_of_noFault {s : State} (hk : s.fcause = .noFault) :
    s.LatchConsistent ↔ s.fpc = 0 ∧ s.fval = 0 := by
  rw [State.LatchConsistent, hk]

theorem SameCore.latchConsistent {s u : State} (h : SameCore s u) (hu : u.LatchConsistent) : s.LatchConsistent := by
  rw [← withCoreOf_eq_of_sameCore h] at hu
  exact hu

theorem startRun_latchConsistent (s : State) (a b c : Nat) : (s.startRun a b c).LatchConsistent := ⟨rfl, rfl⟩

/-- A fault raised records the pc and the cell that raises it, and a core that has faulted keeps its pc and its cells
(spec/60_exceptions.md R230, spec/10_state.md R33). -/
theorem coreStep_latchConsistent {s t : State} (hs : s.LatchConsistent) (h : coreStep s = .next t) :
    t.LatchConsistent := by
  rcases coreStep_cases h with ⟨-, rfl⟩ | ⟨-, -, rfl⟩ | ⟨-, hpc, rfl⟩ | ⟨hk, -, c0, c1, hf, hd⟩
  · exact hs
  · exact hs
  · exact ⟨rfl, rfl, hpc⟩
  · rcases hd with ⟨i, -, -, rfl⟩ | ⟨v, hv, rfl⟩ | ⟨v, hv, rfl⟩ | ⟨v, hv, rfl⟩
    · obtain ⟨hcause, hpc, hval⟩ := effect_keeps_latch i s
      rw [latchConsistent_iff_of_noFault (hcause.trans hk), hpc, hval]
      exact (latchConsistent_iff_of_noFault hk).mp hs
    all_goals exact ⟨rfl, c0, c1, hf, hv⟩

theorem step_latchConsistent {s t : State} (hs : s.LatchConsistent) (h : step s = .next t) : t.LatchConsistent := by
  cases step_coreMove h with
  | kept h => exact h.1.latchConsistent hs
  | stepped u hu h => exact h.1.latchConsistent (coreStep_latchConsistent hs hu)
  | restarted a b c _ h => exact h.1.latchConsistent (startRun_latchConsistent s a b c)
  | launched p a b c _ h => exact h.1.latchConsistent (startRun_latchConsistent (s.loadProgram p) a b c)

/-! LAUNCHED (spec/10_state.md R33, spec/45_run_commands.md R155). -/

theorem SameCore.launched_eq {s u : State} (h : SameCore s u) : s.launched = u.launched := by
  simp only [SameCore] at h
  simp only [h]

/-- Nothing takes LAUNCHED back. -/
theorem CoreMove.keeps_launched {s t : State} (h : CoreMove s t) (hl : s.launched = true) : t.launched = true := by
  cases h with
  | kept h => exact h.1.launched_eq.trans hl
  | stepped u hu h => exact h.1.launched_eq.trans ((coreStep_sameSurroundings hu).launched_eq.symm.trans hl)
  | restarted a b c _ h => exact h.1.launched_eq
  | launched p a b c _ h => exact h.1.launched_eq

/-- A command taken either leaves the machine free or has launched. -/
theorem accept_commandLaunched {cmd : Command} {s t : State} (hidle : s.activity = .idle)
    (h : accept cmd s = .next t) : t.CommandLaunched := by
  intro hbusy
  rcases accept_cases h with ⟨why, rfl⟩ | ⟨-, hl, u, hu, rfl⟩ | ⟨p, a, b, c, -, ht⟩ | ⟨p, -, rfl⟩
  · exact absurd hidle hbusy
  · exact (coreStep_sameSurroundings hu).launched_eq.symm.trans hl
  · rcases ht with rfl | rfl | rfl | rfl <;> rfl
  · rfl

theorem advance_of_idle {s : State} (hidle : s.activity = .idle) : advance s = .next s := by
  simp only [advance, hidle]

theorem step_commandLaunched {s t : State} (hs : s.CommandLaunched) (h : step s = .next t) : t.CommandLaunched := by
  by_cases hidle : s.activity = .idle
  · rcases step_cases h with h | ⟨-, cmd, h, -⟩ | ⟨hbusy, -⟩
    · cases (advance_of_idle (s := popped s) hidle).symm.trans h
      exact hs
    · exact accept_commandLaunched (s := popped s) hidle h
    · exact absurd hidle hbusy
  · exact fun _ => (step_coreMove h).keeps_launched (hs hidle)

/-- Settles O41: the core's step keeps the latch as the table says and a launch clears it; a command begins with a
launch, and nothing takes LAUNCHED back. -/
theorem stepKeepsTheLatchConsistent : Obligations.StepKeepsTheLatchConsistent := fun _ _ hlatch hcommand h =>
  ⟨step_latchConsistent hlatch h, step_commandLaunched hcommand h⟩

end Sys2Proof.Machine
end

section
/-! PROOF. Refused commands (spec/60_exceptions.md R228) and the step before the first launch
(spec/70_reset_and_hazards.md R261). -/

namespace Sys2Proof.Machine

/-! The step before the first launch. -/

theorem stepCommand_of_unlaunched {s : State} (hl : s.launched = false) :
    stepCommand s = .next (s.refuse .notLaunched) :=
  if_pos hl

theorem step_of_unlaunched {s : State} (hl : s.launched = false) (hs : s.HostSteps) :
    step s = .next (s.refuse .notLaunched) := by
  rw [step_of_inbox_nil hs.2, if_pos hs.1, accept, stepCommand_of_unlaunched hl]

/-- Settles O33: the refusal changes the answer alone, so the next step is refused in the same way. -/
theorem unlaunchedStepIsRefused : Obligations.UnlaunchedStepIsRefused := fun n s hl hs =>
  machineRun_succ_of_fixed (step_of_unlaunched hl hs) (step_of_unlaunched (s := s.refuse .notLaunched) hl hs) n

/-! Why a command is refused. -/

theorem launchRefusal_normative (n a b c : Nat) : launchRefusal Config.normative n a b c = none := rfl

theorem launchRefusal_reason {bld : Config.Build} {n a b c : Nat} {why : RefuseReason}
    (h : launchRefusal bld n a b c = some why) : why = .tooWide ∨ why = .tooLong := by
  obtain ⟨-, -, hnone | hwide | hlong⟩ := whenALaunchIsRefused bld n a b c
  · cases hnone.symm.trans h
  · cases hwide.symm.trans h; exact .inl rfl
  · cases hlong.symm.trans h; exact .inr rfl

/-- The two ways in which a machine that is free refuses a command. -/
inductive RefusedWhenFree (cmd : Command) (s : State) (why : RefuseReason) : Prop where
  | unlaunched (hcmd : cmd = .step) (hl : s.launched = false) (hwhy : why = .notLaunched)
  | launch (n a b c : Nat) (hrefusal : launchRefusal s.build n a b c = some why)

/-- A command that begins with a launch hands the host a refusal only where the launch is refused. -/
theorem startWith_refused {refusal : Option RefuseReason} {s u t : State} {why : RefuseReason}
    (h : startWith refusal s u = .next t) (hu : u.answer = .noResult) (ht : t.answer = .refused why) :
    t = s.refuse why ∧ refusal = some why := by
  rcases startWith_cases h with ⟨why', hrefusal, rfl⟩ | ⟨-, rfl⟩
  · cases ht; exact ⟨rfl, hrefusal⟩
  · cases hu.symm.trans ht

theorem stepCommand_refused {s t : State} {why : RefuseReason} (h : stepCommand s = .next t)
    (ht : t.answer = .refused why) : t = s.refuse why ∧ s.launched = false ∧ why = .notLaunched := by
  unfold stepCommand at h
  split at h
  · next hl => cases h; cases ht; exact ⟨rfl, hl, rfl⟩
  · obtain ⟨u, -, hu⟩ := andThen_eq_next.mp h
    cases hu; cases ht

theorem accept_refused {cmd : Command} {s t : State} {why : RefuseReason} (h : accept cmd s = .next t)
    (ht : t.answer = .refused why) : t = s.refuse why ∧ RefusedWhenFree cmd s why := by
  cases cmd with
  | step =>
    obtain ⟨hrefuse, hl, hwhy⟩ := stepCommand_refused h ht
    exact ⟨hrefuse, .unlaunched rfl hl hwhy⟩
  | _ =>
    obtain ⟨hrefuse, hrefusal⟩ := startWith_refused h rfl ht
    exact ⟨hrefuse, .launch _ _ _ _ hrefusal⟩

theorem issue_of_idle {cmd : Command} {s : State} (hidle : s.activity = .idle) : issue cmd s = accept cmd s := by
  simp only [issue, hidle]

theorem issue_of_busy {cmd : Command} {s : State} (hbusy : s.activity ≠ .idle) :
    issue cmd s = .next (s.refuse .busy) := by
  simp only [issue]

/-- Settles O34: a machine in the middle of a command refuses as Busy, a free one for a reason of the `step` command or
of a launch, and an unbounded build has no reason to refuse a launch. -/
theorem refusedCommandsChangeNothing : Obligations.RefusedCommandsChangeNothing := by
  intro cmd s t why h ht
  by_cases hidle : s.activity = .idle
  · obtain ⟨hrefuse, hreason⟩ := accept_refused (issue_of_idle hidle ▸ h) ht
    refine ⟨hrefuse, ?_⟩
    cases hreason with
    | unlaunched hcmd hl hwhy =>
      subst hwhy
      exact ⟨⟨nofun, absurd hidle⟩, fun _ => ⟨hcmd, hl⟩, fun _ => .inl rfl⟩
    | launch n a b c hrefusal =>
      have hbuild : s.build ≠ Config.normative := fun hb => by
        cases (hb ▸ launchRefusal_normative n a b c).symm.trans hrefusal
      rcases launchRefusal_reason hrefusal with rfl | rfl <;>
        exact ⟨⟨nofun, absurd hidle⟩, nofun, fun hb => absurd hb hbuild⟩
  · cases (issue_of_busy hidle).symm.trans h
    cases ht
    exact ⟨rfl, ⟨fun _ => hidle, fun _ => rfl⟩, nofun, fun _ => .inr rfl⟩

end Sys2Proof.Machine
end
